-- ==== Sys2Proof/Word.lean ====
section
/-!
DEFINITION. The words of the machine: bytes, FP16 patterns, addresses, register values, and register numbers.
-/

namespace Sys2Proof

/-- A byte of memory or of an instruction (R23). -/
abbrev Byte := BitVec 8

/-- An FP16 element, a 16-bit pattern (R95). -/
abbrev Fp16 := BitVec 16

/-- A linear or physical address, and a general register's value (R18, R23). Arithmetic wraps at 2^64 (R8). -/
abbrev Addr := BitVec 64

/-- Bits 511:0 of a vector register, all that these instructions compute with (R10, R11). -/
abbrev Zmm := BitVec 512

/-- A full vector register of MAXVL bits (R10): bits 511:0, and bits MAXVL-1:512 as the number they spell, 0 where
MAXVL = 512. (MAXVL is a parameter, D2, so the upper part has no fixed width.) -/
structure VecReg where
  low : Zmm
  high : Nat
deriving DecidableEq, Repr

/-- The number of a vector register, 0..31 (R57). -/
abbrev VReg := BitVec 5

/-- The number of an opmask register, 0..7 (R13). -/
abbrev KReg := BitVec 3

/-- The number of a general register, 0..15 (R18). -/
abbrev Gpr := BitVec 4

end Sys2Proof
end

