-- ==== Sys2Proof/Syntax.lean ====
section
/-!
DEFINITION. Instructions as syntax: one constructor of `Instr` per row of spec/opcode_table.json, with the operands of
30_encoding.md R50 to R62, and `Form`, the one shape all rows share.
-/

namespace Sys2Proof

/-- The legacy prefixes accepted before 62H (R62): the six segment overrides and the address-size prefix. -/
inductive LegacyPrefix where
  | es   -- 26H
  | cs   -- 2EH
  | ss   -- 36H
  | ds   -- 3EH
  | fs   -- 64H
  | gs   -- 65H
  | addr32   -- 67H
deriving DecidableEq, Repr

/-- The four rounding modes, in the encoding shared by EVEX.RC and MXCSR.RC (R16, R59, R100). -/
inductive RoundMode where
  | rn   -- 00b, nearest even
  | rd   -- 01b, toward minus infinity
  | ru   -- 10b, toward plus infinity
  | rz   -- 11b, toward zero
deriving DecidableEq, Repr

/-- The vector length VL of a form (R59, R81). -/
inductive VecLen where
  | v128
  | v256
  | v512
deriving DecidableEq, Repr

/-- The three digits of the mnemonic, which give the operands their roles (R80). -/
inductive Digits where
  | d132
  | d213
  | d231
deriving DecidableEq, Repr

/-- The masking of the destination (R61): no writemask, merging under k1..k7, or zeroing under k1..k7. -/
inductive Masking where
  | none
  | merge (k : KReg)
  | zero (k : KReg)
deriving DecidableEq, Repr

/-- The displacement that ModRM.mod = 00b, 01b, 10b selects (R58). -/
inductive Disp where
  | none
  | d8 (d : BitVec 8)
  | d32 (d : BitVec 32)
deriving DecidableEq, Repr

/-- A memory operand as ModRM and SIB write it (R36, R58). The Bool fields are the EVEX extension bits that the form
does not use (R64: every value of them is legal); they are kept so that an instruction is exactly its bytes. -/
inductive MemOperand where
  /-- `[base + disp]` without a SIB byte; EVEX.X is not used. -/
  | baseDisp (unusedX : Bool) (base : Gpr) (disp : Disp)
  /-- `[rip + disp32]`: mod = 00b, rm = 101b; EVEX.X and EVEX.B are not used. -/
  | ripRel (unusedX unusedB : Bool) (disp : BitVec 32)
  /-- `[base + index << scale + disp]`; index 4 is "no index". -/
  | sib (base index : Gpr) (scale : BitVec 2) (disp : Disp)
  /-- `[index << scale + disp32]`: mod = 00b, SIB.base = 101b; EVEX.B is not used. -/
  | sibNoBase (unusedB : Bool) (index : Gpr) (scale : BitVec 2) (disp : BitVec 32)
deriving DecidableEq, Repr

/-- Operand 3 of a plain row: a vector register, or memory read whole or broadcast from one element (R30, R60). -/
inductive Src3 where
  | reg (r : VReg)
  | mem (bcst : Bool) (m : MemOperand)
deriving DecidableEq, Repr

/-- The operands of a plain row (vector length 128, 256 or 512, no embedded rounding). -/
structure PlainForm where
  pfx : List LegacyPrefix
  dest : VReg
  src2 : VReg
  src3 : Src3
  mask : Masking
deriving DecidableEq, Repr

/-- The operands of an embedded-rounding row: three registers and EVEX.RC (R59). -/
structure ErForm where
  pfx : List LegacyPrefix
  dest : VReg
  src2 : VReg
  src3 : VReg
  mask : Masking
  rc : RoundMode
deriving DecidableEq, Repr

/-- The instructions: spec/opcode_table.json row by row, in the table's order. -/
inductive Instr where
  | vfmadd132phEr (o : ErForm)
  | vfmadd132ph128 (o : PlainForm)
  | vfmadd132ph256 (o : PlainForm)
  | vfmadd132ph512 (o : PlainForm)
  | vfmadd213phEr (o : ErForm)
  | vfmadd213ph128 (o : PlainForm)
  | vfmadd213ph256 (o : PlainForm)
  | vfmadd213ph512 (o : PlainForm)
  | vfmadd231phEr (o : ErForm)
  | vfmadd231ph128 (o : PlainForm)
  | vfmadd231ph256 (o : PlainForm)
  | vfmadd231ph512 (o : PlainForm)
  | vfnmadd132phEr (o : ErForm)
  | vfnmadd132ph128 (o : PlainForm)
  | vfnmadd132ph256 (o : PlainForm)
  | vfnmadd132ph512 (o : PlainForm)
  | vfnmadd213phEr (o : ErForm)
  | vfnmadd213ph128 (o : PlainForm)
  | vfnmadd213ph256 (o : PlainForm)
  | vfnmadd213ph512 (o : PlainForm)
  | vfnmadd231phEr (o : ErForm)
  | vfnmadd231ph128 (o : PlainForm)
  | vfnmadd231ph256 (o : PlainForm)
  | vfnmadd231ph512 (o : PlainForm)
deriving DecidableEq, Repr

/-- What all rows have in common: the decoded fields that `ExecPacked` takes (R90). `er` holds EVEX.RC when embedded
rounding is selected. -/
structure Form where
  digits : Digits
  neg : Bool
  vl : VecLen
  er : Option RoundMode
  pfx : List LegacyPrefix
  dest : VReg
  src2 : VReg
  src3 : Src3
  mask : Masking
deriving DecidableEq, Repr

end Sys2Proof
end

