-- ==== Sys2Proof/Machine/Forms.lean ====
section
/-!
DEFINITION. The view of an instruction as a `Form`, and the instruction length (30_encoding.md R55, R59, R63).
-/

namespace Sys2Proof

/-- VL in bits (R59). -/
def VecLen.bits : VecLen → Nat
  | .v128 => 128
  | .v256 => 256
  | .v512 => 512

/-- KL = VL/16, the number of elements (R81). -/
def VecLen.lanes (v : VecLen) : Nat := v.bits / 16

/-- The two-bit code of EVEX.RC and MXCSR.RC (R16, R59). -/
def roundModeOf (b : BitVec 2) : RoundMode :=
  if b = 0#2 then .rn else if b = 1#2 then .rd else if b = 2#2 then .ru else .rz

/-- The code of a rounding mode (R16, R59). -/
def roundModeBits : RoundMode → BitVec 2
  | .rn => 0#2
  | .rd => 1#2
  | .ru => 2#2
  | .rz => 3#2

/-- The L'L code of a vector length; 11b is reserved (R59). -/
def vecLenOf (b : BitVec 2) : Option VecLen :=
  if b = 0#2 then some .v128 else if b = 1#2 then some .v256 else if b = 2#2 then some .v512 else none

/-- L'L for a vector length (R59). -/
def vecLenBits : VecLen → BitVec 2
  | .v128 => 0#2
  | .v256 => 1#2
  | .v512 => 2#2

/-- A plain row: rounding comes from MXCSR (R60). -/
def plainForm (digits : Digits) (neg : Bool) (vl : VecLen) (o : PlainForm) : Form where
  digits := digits
  neg := neg
  vl := vl
  er := none
  pfx := o.pfx
  dest := o.dest
  src2 := o.src2
  src3 := o.src3
  mask := o.mask

/-- An embedded-rounding row: always 512 bits, operand 3 a register (R59). -/
def erForm (digits : Digits) (neg : Bool) (o : ErForm) : Form where
  digits := digits
  neg := neg
  vl := .v512
  er := some o.rc
  pfx := o.pfx
  dest := o.dest
  src2 := o.src2
  src3 := .reg o.src3
  mask := o.mask

/-- The plain instruction with these digits, sign and length (R55). -/
def mkPlain : Digits → Bool → VecLen → PlainForm → Instr
  | .d132, false, .v128 => .vfmadd132ph128
  | .d132, false, .v256 => .vfmadd132ph256
  | .d132, false, .v512 => .vfmadd132ph512
  | .d213, false, .v128 => .vfmadd213ph128
  | .d213, false, .v256 => .vfmadd213ph256
  | .d213, false, .v512 => .vfmadd213ph512
  | .d231, false, .v128 => .vfmadd231ph128
  | .d231, false, .v256 => .vfmadd231ph256
  | .d231, false, .v512 => .vfmadd231ph512
  | .d132, true, .v128 => .vfnmadd132ph128
  | .d132, true, .v256 => .vfnmadd132ph256
  | .d132, true, .v512 => .vfnmadd132ph512
  | .d213, true, .v128 => .vfnmadd213ph128
  | .d213, true, .v256 => .vfnmadd213ph256
  | .d213, true, .v512 => .vfnmadd213ph512
  | .d231, true, .v128 => .vfnmadd231ph128
  | .d231, true, .v256 => .vfnmadd231ph256
  | .d231, true, .v512 => .vfnmadd231ph512

/-- The embedded-rounding instruction with these digits and sign (R55, R59). -/
def mkEr : Digits → Bool → ErForm → Instr
  | .d132, false => .vfmadd132phEr
  | .d213, false => .vfmadd213phEr
  | .d231, false => .vfmadd231phEr
  | .d132, true => .vfnmadd132phEr
  | .d213, true => .vfnmadd213phEr
  | .d231, true => .vfnmadd231phEr

/-- The decoded fields of an instruction (R55, R90). -/
def Instr.form : Instr → Form
  | .vfmadd132phEr o => erForm .d132 false o
  | .vfmadd132ph128 o => plainForm .d132 false .v128 o
  | .vfmadd132ph256 o => plainForm .d132 false .v256 o
  | .vfmadd132ph512 o => plainForm .d132 false .v512 o
  | .vfmadd213phEr o => erForm .d213 false o
  | .vfmadd213ph128 o => plainForm .d213 false .v128 o
  | .vfmadd213ph256 o => plainForm .d213 false .v256 o
  | .vfmadd213ph512 o => plainForm .d213 false .v512 o
  | .vfmadd231phEr o => erForm .d231 false o
  | .vfmadd231ph128 o => plainForm .d231 false .v128 o
  | .vfmadd231ph256 o => plainForm .d231 false .v256 o
  | .vfmadd231ph512 o => plainForm .d231 false .v512 o
  | .vfnmadd132phEr o => erForm .d132 true o
  | .vfnmadd132ph128 o => plainForm .d132 true .v128 o
  | .vfnmadd132ph256 o => plainForm .d132 true .v256 o
  | .vfnmadd132ph512 o => plainForm .d132 true .v512 o
  | .vfnmadd213phEr o => erForm .d213 true o
  | .vfnmadd213ph128 o => plainForm .d213 true .v128 o
  | .vfnmadd213ph256 o => plainForm .d213 true .v256 o
  | .vfnmadd213ph512 o => plainForm .d213 true .v512 o
  | .vfnmadd231phEr o => erForm .d231 true o
  | .vfnmadd231ph128 o => plainForm .d231 true .v128 o
  | .vfnmadd231ph256 o => plainForm .d231 true .v256 o
  | .vfnmadd231ph512 o => plainForm .d231 true .v512 o

/-- The bytes a displacement takes (R58). -/
def Disp.len : Disp → Nat
  | .none => 0
  | .d8 _ => 1
  | .d32 _ => 4

/-- The bytes of SIB and displacement (R58). -/
def MemOperand.extraLen : MemOperand → Nat
  | .baseDisp _ _ d => d.len
  | .ripRel _ _ _ => 4
  | .sib _ _ _ d => 1 + d.len
  | .sibNoBase _ _ _ _ => 5

/-- The bytes after ModRM (R58). -/
def Src3.extraLen : Src3 → Nat
  | .reg _ => 0
  | .mem _ m => m.extraLen

/-- `ilen` (R63): prefix bytes, the six fixed bytes, SIB and displacement. -/
def Form.ilen (f : Form) : Nat := f.pfx.length + 6 + f.src3.extraLen

/-- The length in bytes of an instruction (R63). -/
def Instr.ilen (i : Instr) : Nat := i.form.ilen

end Sys2Proof
end

