-- ==== Sys2Proof/Config.lean ====
section
/-!
DEFINITION. The implementation parameters of 00_scope.md R7 as the record `Config`, which State carries and no instruction
writes, and the longest instruction. (`VL` is decoded; `Translate`, `MODE` and `CPL` are in State; `DeliverException`
is outside the spec, D13.)
-/

namespace Sys2Proof

/-- The longest instruction, in bytes (R63, D31). -/
abbrev maxInstrLen : Nat := 15

/-- The parameter `nan_select` (R7, D16): in which order the roles multiplicand, multiplier, addend are searched for the
NaN a lane returns. The spec's default is `multiplicandMultiplierAddend` (R101). -/
inductive NanSelect where
  | multiplicandMultiplierAddend
  | multiplicandAddendMultiplier
  | multiplierMultiplicandAddend
  | multiplierAddendMultiplicand
  | addendMultiplicandMultiplier
  | addendMultiplierMultiplicand
deriving DecidableEq, Repr

/-- The parameter `LA_WIDTH` (R7, R38): implemented linear-address bits, 57 when 5-level paging is on. -/
inductive LaWidth where
  | bits48
  | bits57
deriving DecidableEq, Repr

/-- The parameters of R7 that a launch chooses, and the CPUID flags of R3 and R22. -/
structure Config where
  /-- `MAXVL - 512`, so that the constraint MAXVL >= 512 of D2 holds by construction. -/
  extraVl : Nat
  /-- `NVEC` (R10): vector registers nameable. -/
  nVec : Nat
  /-- `NMASK` (R13): opmask registers. -/
  nMask : Nat
  /-- `KW` (R13): bits of an opmask register. -/
  maskWidth : Nat
  /-- CPUID.(07H,0):EBX[16], AVX512F (R22). -/
  hasAvx512f : Bool
  /-- CPUID.(07H,0):EDX[23], `HAS_AVX512_FP16` (R3). -/
  hasAvx512Fp16 : Bool
  /-- CPUID.(07H,0):EBX[31], `HAS_AVX512VL` (R3). -/
  hasAvx512Vl : Bool
  /-- `FP16_HONOURS_DAZ_FTZ` (R110). -/
  fp16HonoursDazFtz : Bool
  /-- `DE_ON_INVALID_LANE` (R102, R109). -/
  deOnInvalidLane : Bool
  nanSelect : NanSelect
  laWidth : LaWidth
deriving DecidableEq, Repr

/-- `MAXVL` in bits (R7, D2): the width of a full vector register. -/
def Config.maxVl (c : Config) : Nat := 512 + c.extraVl

/-- Every parameter at the default of R7 (D3 for the CPUID flags). -/
def specDefaults : Config where
  extraVl := 0
  nVec := 32
  nMask := 8
  maskWidth := 64
  hasAvx512f := true
  hasAvx512Fp16 := true
  hasAvx512Vl := true
  fp16HonoursDazFtz := false
  deOnInvalidLane := true
  nanSelect := .multiplicandMultiplierAddend
  laWidth := .bits48

end Sys2Proof
end

