-- ==== Sys2Proof/Machine/State.lean ====
section
/-!
DEFINITION. The state of the machine as plain data (10_state.md), the exceptions of 60_exceptions.md R130, the reasons a
step can stop, and the state after reset (R26).
-/

namespace Sys2Proof.Machine

open Sys2Proof

/-- What an access is for: the access kind of `Translate` (R7, R39). -/
inductive AccessKind where
  | read
  | fetch
deriving DecidableEq, Repr

/-- What `Translate` answers (R39): a physical byte address, or a page fault with its error code. -/
inductive Translated where
  | phys (pa : Addr)
  | pageFault (code : BitVec 32)
deriving DecidableEq, Repr

/-- One range of the launch's `Translate` (R39, D10): linear addresses `first` to `last`, for one access kind and one
privilege level or (`none`) for all. `phys` gives the physical address of `first`. -/
structure TranslateRange where
  first : Addr
  last : Addr
  kind : Option AccessKind
  cpl : Option (BitVec 2)
  answer : Translated
deriving DecidableEq, Repr

/-- A range of physical addresses, `first` to `last`. -/
structure PhysRange where
  first : Addr
  last : Addr
deriving DecidableEq, Repr

/-- The program text given at launch (R167): `size` bytes of instructions at linear address `start`. -/
structure ProgramText where
  start : Addr
  size : Nat
deriving DecidableEq, Repr

/-- Memory: the listed physical bytes, addresses strictly rising. An unlisted address has no value (R43). -/
abbrev Memory := List Host.Cell

/-- The exceptions of R130. `xm` is #XM, `gp` and `ss` carry error code 0, `pf` its error code and the address for CR2.
`ac` stands in R130's table as the one that this family never raises (R136). -/
inductive Exception where
  | ud
  | nm
  | ss
  | gp
  | pf (code : BitVec 32) (la : Addr)
  | xm
  | ac
deriving DecidableEq, Repr

/-- Why the machine stops with a fault. -/
inductive Fault where
  /-- Raised by `step` when the last instruction raised the exception: its delivery is outside the spec, and the run ends
  with the vector, error code and CR2 value that it carries (R141, R167). Safe. -/
  | exceptionRaised (e : Exception)
  /-- Raised by a meaning or by the fetch that needs a physical byte which memory does not hold: no step, stuck (R43).
  Safe. -/
  | absentMemory
  /-- Raised by `step` when RIP is the address after the last instruction of the program text: the run ends (R167).
  Safe. -/
  | endOfProgram
deriving DecidableEq, Repr

/-- Why the model declines (93_implementation_defined.md, "refuse"): never a behaviour of the hardware. -/
inductive Refusal where
  /-- Raised by `exec` for an instruction that has no meaning yet. Safe. -/
  | notModelled (mnemonic : String)
  /-- Raised by `step` for bytes that are no encoding of this family (R65, D23, D24). Safe. -/
  | notThisFamily
  /-- Raised by `step` and by every meaning in a mode that is neither 64-bit, real-address nor virtual-8086 (R4, D1).
  Safe. -/
  | not64BitMode
  /-- Raised by a meaning whose operand needs a byte in device memory (R41, D11), and by the fetch of an instruction byte
  there, on which the spec is silent (the model's choice, log 17). Safe. -/
  | deviceMemory
  /-- Raised by `step` when an instruction byte lies beyond the program text (R167). Safe. -/
  | beyondProgramText
  /-- Raised by `step` when a byte of the instruction or the next RIP is not canonical, or RIP would wrap (R19, D25).
  Safe. -/
  | ripNotCanonical
  /-- Raised by `step` when RFLAGS.TF asks for single-stepping, which the spec leaves out (R149). Safe. -/
  | singleStepArmed
  /-- Raised by a meaning whose form names a vector or opmask register, or mask bits, that the launch's NVEC, NMASK or KW do
  not have (R7, log 24); never with the spec's defaults. Safe. -/
  | registerAbsent
  /-- Raised by `step` when a reserved MXCSR bit is 1, which hardware cannot hold (R16, I23). Safe. -/
  | mxcsrReserved
deriving DecidableEq, Repr

/-- The machine's state. -/
structure State where
  /-- zmm[0..31] (R10), all that five-bit numbers name; xmm and ymm are their low parts (R11). -/
  zmm : Vector VecReg 32
  /-- k[0..7] (R13), all that three-bit numbers name. -/
  k : Vector (BitVec 64) 8
  /-- MXCSR (R16). -/
  mxcsr : BitVec 32
  /-- The general registers (R18). -/
  gpr : Vector Addr 16
  /-- RIP (R19). -/
  rip : Addr
  /-- RFLAGS (R20, R22). -/
  rflags : BitVec 64
  /-- FS.base (R21). -/
  fsBase : Addr
  /-- GS.base (R21). -/
  gsBase : Addr
  /-- The CS selector; its low two bits are the CPL (R22, R26). -/
  csSelector : BitVec 16
  /-- CS.base, used outside 64-bit mode (R26). -/
  csBase : Addr
  /-- The L bit of the CS descriptor (R22). -/
  csL : Bool
  /-- CR0 (R22). -/
  cr0 : BitVec 64
  /-- CR2, the faulting linear address (R39, R135). -/
  cr2 : Addr
  /-- CR4 (R22). -/
  cr4 : BitVec 64
  /-- XCR0 (R22). -/
  xcr0 : BitVec 64
  /-- IA32_EFER (R22). -/
  efer : BitVec 64
  /-- Physical memory (R23, R43). -/
  mem : Memory
  /-- The launch's `Translate` (R39, D10), the first range that applies; the identity where none does. -/
  translation : List TranslateRange
  /-- The physical ranges that are device memory (R41). -/
  devices : List PhysRange
  /-- The program text (R167). -/
  text : ProgramText
  /-- The parameters of R7. -/
  config : Config
  /-- The MODEL's own field: the exception the last instruction raised, for the run to end with (R141). -/
  raised : Option Exception
deriving DecidableEq, Repr

/-- The state after power-up or RESET (R26). RDX, CR2, CS.L and the launch components hold the values that the
assumption log names. -/
def State.reset : State where
  zmm := Vector.replicate 32 ⟨0, 0⟩
  k := Vector.replicate 8 0
  mxcsr := 0x1F80#32
  gpr := Vector.replicate 16 0
  rip := 0xFFF0#64
  rflags := 2#64
  fsBase := 0
  gsBase := 0
  csSelector := 0xF000#16
  csBase := 0xFFFF0000#64
  csL := false
  cr0 := 0x60000010#64
  cr2 := 0
  cr4 := 0
  xcr0 := 1#64
  efer := 0
  mem := []
  translation := []
  devices := []
  text := { start := 0xFFFFFFF0#64, size := 0 }
  config := specDefaults
  raised := none

end Sys2Proof.Machine
end

