-- ==== Sys2Proof/Machine/Ops.lean ====
section
/-!
DEFINITION. The named operations over registers, control state and memory, `Translate` and the data reads of
20_memory.md, taking an exception (60_exceptions.md R130, R140, R141), and the INIT event (R26).
-/

namespace Sys2Proof.Machine

open Sys2Proof

/-! ### Registers -/

/-- zmm[r], all MAXVL bits (R10). -/
def State.zmmReg (s : State) (r : VReg) : VecReg := s.zmm[r.toNat]'r.isLt

/-- Bits 511:0 of zmm[r] (R10). -/
def State.zmmAt (s : State) (r : VReg) : Zmm := (s.zmmReg r).low

/-- One bit of a vector register. -/
def regBit (v : VecReg) (b : Nat) : Bool := if b < 512 then v.low.getLsbD b else v.high.testBit (b - 512)

/-- k[r] (R13). -/
def State.kAt (s : State) (r : KReg) : BitVec 64 := s.k[r.toNat]'r.isLt

/-- gpr[r] (R18). -/
def State.gprAt (s : State) (r : Gpr) : Addr := s.gpr[r.toNat]'r.isLt

/-- Write all of zmm[r] (R10, R24). -/
def State.setZmm (s : State) (r : VReg) (v : VecReg) : State := { s with zmm := s.zmm.set r.toNat v r.isLt }

/-- Write RIP (R19). -/
def State.setRip (s : State) (a : Addr) : State := { s with rip := a }

/-- Write MXCSR (R15). -/
def State.setMxcsr (s : State) (v : BitVec 32) : State := { s with mxcsr := v }

/-- Write CR2 (R135). -/
def State.setCr2 (s : State) (a : Addr) : State := { s with cr2 := a }

/-- Record the exception an instruction raised (R141). -/
def State.setRaised (s : State) (e : Option Exception) : State := { s with raised := e }

/-- Replace memory, for the host's placement of a program; no instruction writes memory (R30). -/
def State.setMem (s : State) (m : Memory) : State := { s with mem := m }

/-- Replace the program text, for the host's placement of a program (R167). -/
def State.setText (s : State) (t : ProgramText) : State := { s with text := t }

/-! ### Control state (R22) -/

/-- CR0.PE. -/
def State.protectedMode (s : State) : Bool := s.cr0.getLsbD 0

/-- CR0.TS. -/
def State.taskSwitched (s : State) : Bool := s.cr0.getLsbD 3

/-- RFLAGS.VM. -/
def State.vmFlag (s : State) : Bool := s.rflags.getLsbD 17

/-- RFLAGS.TF (R149). -/
def State.trapFlag (s : State) : Bool := s.rflags.getLsbD 8

/-- Real-address or virtual-8086 mode (U9). -/
def State.realOrVm86 (s : State) : Bool := !s.protectedMode || s.vmFlag

/-- 64-bit mode: protected mode with IA32_EFER.LMA and CS.L. -/
def State.in64BitMode (s : State) : Bool := !s.realOrVm86 && s.efer.getLsbD 10 && s.csL

/-- CR4.OSXMMEXCPT. -/
def State.osxmmexcpt (s : State) : Bool := s.cr4.getLsbD 10

/-- The operating system has enabled the state: CR4.OSXSAVE, XCR0[2:1] = 11b, XCR0[7:5] = 111b (the opposite of U8). -/
def State.osEnabled (s : State) : Bool :=
  s.cr4.getLsbD 18 && s.xcr0.extractLsb' 1 2 == 3#2 && s.xcr0.extractLsb' 5 3 == 7#3

/-- The current privilege level, CS.RPL. -/
def State.cpl (s : State) : BitVec 2 := s.csSelector.extractLsb' 0 2

/-! ### Addresses and memory (20_memory.md) -/

/-- A canonical linear address (R38): bits 63:47 all equal, or bits 63:56 with 57-bit linear addresses. -/
def State.canonical (s : State) (la : Addr) : Bool :=
  match s.config.laWidth with
  | .bits48 => la.extractLsb' 47 17 == 0#17 || la.extractLsb' 47 17 == BitVec.allOnes 17
  | .bits57 => la.extractLsb' 56 8 == 0#8 || la.extractLsb' 56 8 == BitVec.allOnes 8

/-- The range speaks of this linear address, access kind and privilege level. -/
def TranslateRange.applies (r : TranslateRange) (kind : AccessKind) (cpl : BitVec 2) (la : Addr) : Bool :=
  r.first.ule la && la.ule r.last && (r.kind.isNone || r.kind == some kind) && (r.cpl.isNone || r.cpl == some cpl)

/-- `Translate(la, kind, CPL)` (R39): the first range that applies, the identity where none does. -/
def State.translate (s : State) (kind : AccessKind) (la : Addr) : Translated :=
  match s.translation.find? fun r => r.applies kind s.cpl la with
  | none => .phys la
  | some r =>
    match r.answer with
    | .phys pa => .phys (pa + (la - r.first))
    | .pageFault code => .pageFault code

/-- The physical address lies in device memory (R41). -/
def State.isDevice (s : State) (pa : Addr) : Bool := s.devices.any fun r => r.first.ule pa && pa.ule r.last

/-- The byte memory holds at a physical address; none where nothing is listed (R43). -/
def Memory.read (m : Memory) (pa : Addr) : Option Byte := m.lookup pa.toNat

/-- Store a byte, keeping the addresses strictly rising. -/
def Memory.write : Memory → Nat → Byte → Memory
  | [], a, v => [(a, v)]
  | (b, w) :: m, a, v =>
    if a < b then (a, v) :: (b, w) :: m
    else if a = b then (a, v) :: m
    else (b, w) :: Memory.write m a v

/-- The canonical form of memory: addresses strictly rising. (No entry can equal what an unlisted address reads as, since
that is no value.) -/
abbrev Memory.wf (m : Memory) : Prop := m.Pairwise fun c d => c.1 < d.1

/-- What reading one linear byte finds. -/
inductive ByteAccess where
  | byte (v : Byte)
  | pageFault (code : BitVec 32)
  | device
  | absent
deriving DecidableEq, Repr

/-- Read one byte at a linear address (R32, R39 to R43). -/
def State.readByte (s : State) (kind : AccessKind) (la : Addr) : ByteAccess :=
  match s.translate kind la with
  | .pageFault code => .pageFault code
  | .phys pa =>
    if s.isDevice pa then .device
    else match s.mem.read pa with
      | none => .absent
      | some v => .byte v

/-- The lowest of the addresses whose data read page-faults, with its error code (R39). -/
def State.lowestFault (s : State) : List Addr → Option (Addr × BitVec 32)
  | [] => none
  | la :: rest =>
    match s.translate .read la, State.lowestFault s rest with
    | .phys _, later => later
    | .pageFault code, none => some (la, code)
    | .pageFault code, some (la', code') => if la'.ult la then some (la', code') else some (la, code)

/-- What reading a set of needed bytes meets (R35, R39, R41, R43). -/
inductive LoadStatus where
  | ok
  | pageFault (la : Addr) (code : BitVec 32)
  | device
  | absent
deriving DecidableEq, Repr

/-- The needed bytes of a data read, checked: a page fault first, then device memory, then an absent byte (log 27). R41 and
I13 speak of an operand in device memory and not of masked-off bytes there: only needed bytes count (the model's choice,
log 17). -/
def State.loadStatus (s : State) (needed : List Addr) : LoadStatus :=
  match s.lowestFault needed with
  | some (la, code) => .pageFault la code
  | none =>
    if needed.any fun la => s.readByte .read la == .device then .device
    else if needed.any fun la => s.readByte .read la == .absent then .absent
    else .ok

/-- The value of a byte whose read succeeds; used only after `loadStatus` has answered `ok` for it. -/
def ByteAccess.value : ByteAccess → Byte
  | .byte v => v
  | _ => 0

/-- One FP16 element at a linear address, little-endian (R32). -/
def State.element (s : State) (la : Addr) : Fp16 :=
  (s.readByte .read (la + 1)).value ++ (s.readByte .read la).value

/-! ### Exceptions (60_exceptions.md) -/

/-- The vector of an exception (R130). -/
def Exception.vector : Exception → Nat
  | .ud => 6
  | .nm => 7
  | .ss => 12
  | .gp => 13
  | .pf _ _ => 14
  | .ac => 17
  | .xm => 19

/-- The error code of an exception, none where R130 says none. -/
def Exception.errorCode : Exception → Option (BitVec 32)
  | .ud => none
  | .nm => none
  | .ss => some 0
  | .gp => some 0
  | .pf code _ => some code
  | .ac => some 0
  | .xm => none

/-- Taking an exception, as far as the spec describes it (R140, R141): CR2 receives the faulting address of a #PF, the
exception is recorded with its vector and error code, and nothing else changes; RIP still points at the instruction. The
delivery through the interrupt descriptor table and the return from a handler are outside the spec (R6, R141, R142): there
is no return operation, and the next step ends the run. -/
def State.takeException (s : State) (e : Exception) : State :=
  match e with
  | .pf _ la => (s.setCr2 la).setRaised (some e)
  | _ => s.setRaised (some e)

/-! ### The INIT event (R26) -/

/-- The state after INIT (R26): as after reset, with the vector, opmask, MXCSR, XCR0 and EFER registers, CR0.CD and
CR0.NW, and all that the table does not name (memory, CR2, the launch) unchanged. -/
def State.initEvent (s : State) : State :=
  { s with
    gpr := State.reset.gpr
    rip := State.reset.rip
    rflags := State.reset.rflags
    fsBase := 0
    gsBase := 0
    csSelector := State.reset.csSelector
    csBase := State.reset.csBase
    csL := State.reset.csL
    cr0 := (s.cr0 &&& 0x60000000#64) ||| 0x10#64
    cr4 := 0
    raised := none }

end Sys2Proof.Machine
end

