-- ==== Sys2Proof/Machine/Flags.lean ====
section
/-!
DEFINITION. The MXCSR fields (10_state.md R16), sets of SIMD floating-point flags, and how they reach MXCSR (R17, R88).
-/

namespace Sys2Proof.Machine

open Sys2Proof

/-- A set of detected flags, a subset of {IE, DE, OE, UE, PE} (R88, R113). -/
structure FpFlags where
  ie : Bool := false
  de : Bool := false
  oe : Bool := false
  ue : Bool := false
  pe : Bool := false
deriving DecidableEq, Repr

/-- The empty set. -/
def FpFlags.empty : FpFlags := {}

/-- Union (R88). -/
def FpFlags.union (a b : FpFlags) : FpFlags where
  ie := a.ie || b.ie
  de := a.de || b.de
  oe := a.oe || b.oe
  ue := a.ue || b.ue
  pe := a.pe || b.pe

/-- The pre-computation part {IE, DE} (R88). -/
def FpFlags.pre (a : FpFlags) : FpFlags := { ie := a.ie, de := a.de }

/-- The post-computation part {OE, UE, PE} (R88). -/
def FpFlags.post (a : FpFlags) : FpFlags := { oe := a.oe, ue := a.ue, pe := a.pe }

/-- The flags at their places in MXCSR[5:0]: PE UE OE ZE DE IE (R16); ZE is never among them (R111). -/
def FpFlags.bits (a : FpFlags) : BitVec 6 :=
  BitVec.ofBool a.pe ++ BitVec.ofBool a.ue ++ BitVec.ofBool a.oe ++ 0#1 ++ BitVec.ofBool a.de ++ BitVec.ofBool a.ie

/-- MXCSR[12:7], the mask bits in the order of the flags (R16). -/
def State.mxcsrMasks (s : State) : BitVec 6 := s.mxcsr.extractLsb' 7 6

/-- MXCSR.RC (R16). -/
def State.mxcsrRc (s : State) : RoundMode := roundModeOf (s.mxcsr.extractLsb' 13 2)

/-- MXCSR.DAZ (R16). -/
def State.mxcsrDaz (s : State) : Bool := s.mxcsr.getLsbD 6

/-- MXCSR.FTZ (R16). -/
def State.mxcsrFtz (s : State) : Bool := s.mxcsr.getLsbD 15

/-- MXCSR[31:16], which must be 0 (R16). -/
def State.mxcsrReservedBits (s : State) : BitVec 16 := s.mxcsr.extractLsb' 16 16

/-- Some flag of the set has a mask bit that is 0 (R88). -/
def FpFlags.unmasked (a : FpFlags) (masks : BitVec 6) : Bool := a.bits &&& ~~~masks != 0#6

/-- MXCSR[5:0] <- MXCSR[5:0] | flags (R17, R88). -/
def State.orFlags (s : State) (a : FpFlags) : State := s.setMxcsr (s.mxcsr ||| a.bits.setWidth 32)

end Sys2Proof.Machine
end

