-- ==== Sys2Proof/Machine/Fp16.lean ====
section
/-!
DEFINITION. The FP16 format and the one-lane fused multiply-add `fma16` (41_fp16_lane_numerics.md). Exact values are
integers: an FP16 value in units of 2^-24, a product or a sum in units of 2^-48 (R99).
-/

namespace Sys2Proof.Machine

open Sys2Proof

/-! ### The format (R95 to R97) -/

/-- The sign bit, h[15]. -/
def fpSign (h : Fp16) : Bool := h.getLsbD 15

/-- The biased exponent, h[14:10]. -/
def fpExp (h : Fp16) : BitVec 5 := h.extractLsb' 10 5

/-- The fraction, h[9:0]. -/
def fpFrac (h : Fp16) : BitVec 10 := h.extractLsb' 0 10

/-- The classes of R96. -/
inductive FpClass where
  | zero
  | denormal
  | normal
  | infinity
  | snan
  | qnan
deriving DecidableEq, Repr

/-- The class of a pattern (R96). -/
def fpClass (h : Fp16) : FpClass :=
  if fpExp h = 0#5 then (if fpFrac h = 0#10 then .zero else .denormal)
  else if fpExp h = 31#5 then
    (if fpFrac h = 0#10 then .infinity else if (fpFrac h).getLsbD 9 then .qnan else .snan)
  else .normal

/-- A NaN, quiet or signalling. -/
def isNan (h : Fp16) : Bool := fpClass h == .snan || fpClass h == .qnan

/-- A signalling NaN. -/
def isSnan (h : Fp16) : Bool := fpClass h == .snan

/-- An infinity. -/
def isInf (h : Fp16) : Bool := fpClass h == .infinity

/-- A zero. -/
def isZero (h : Fp16) : Bool := fpClass h == .zero

/-- A denormal. -/
def isDenormal (h : Fp16) : Bool := fpClass h == .denormal

/-- Zero, denormal or normal. -/
def isFinite (h : Fp16) : Bool := fpExp h != 31#5

/-- The magnitude of a finite pattern in units of 2^-24 (R97): f, or (1024 + f) * 2^(e-1). -/
def fpMag (h : Fp16) : Nat :=
  if fpExp h = 0#5 then (fpFrac h).toNat else (1024 + (fpFrac h).toNat) * 2 ^ ((fpExp h).toNat - 1)

/-- `val` of a finite pattern in units of 2^-24 (R97). -/
def fpVal (h : Fp16) : Int := if fpSign h then -(fpMag h : Int) else (fpMag h : Int)

/-- `quiet` (R97): set the top fraction bit. -/
def quiet (h : Fp16) : Fp16 := h ||| 0x0200#16

/-- The QNaN indefinite (R97). -/
def defaultNan : Fp16 := 0xFE00#16

/-- A sign over 15 magnitude bits. -/
def withSign (s : Bool) (m : BitVec 15) : Fp16 := BitVec.ofBool s ++ m

/-! ### Rounding (R100) -/

/-- `round_int` of the rational `num / den`, for a value of sign `s` (true is negative). -/
def roundInt (num den : Nat) (s : Bool) (rm : RoundMode) : Nat :=
  let fl := num / den
  let fr := num % den
  if fr = 0 then fl
  else match rm with
    | .rn => if den < 2 * fr ∨ (2 * fr = den ∧ fl % 2 = 1) then fl + 1 else fl
    | .rd => if s then fl + 1 else fl
    | .ru => if s then fl else fl + 1
    | .rz => fl

/-- What one instruction fixes for all its lanes: the rounding mode, the mask bits (R98), and the parameters of R101, R102
and R110. `daz` and `ftz` are MXCSR.DAZ and MXCSR.FTZ where `FP16_HONOURS_DAZ_FTZ` is true, else false. -/
structure LaneControl where
  rm : RoundMode
  masks : BitVec 6
  daz : Bool
  ftz : Bool
  deOnInvalid : Bool
  nanSelect : NanSelect
deriving DecidableEq, Repr

/-- MXCSR.UM among the mask bits (R16). -/
def LaneControl.um (c : LaneControl) : Bool := c.masks.getLsbD 4

/-- The first NaN among three patterns, made quiet (R101). -/
def firstNan (a b c : Fp16) : Fp16 := if isNan a then quiet a else if isNan b then quiet b else quiet c

/-- The NaN a lane returns (R101, parameter `nan_select`). -/
def selectNan (n : NanSelect) (x y w : Fp16) : Fp16 :=
  match n with
  | .multiplicandMultiplierAddend => firstNan x y w
  | .multiplicandAddendMultiplier => firstNan x w y
  | .multiplierMultiplicandAddend => firstNan y x w
  | .multiplierAddendMultiplicand => firstNan y w x
  | .addendMultiplicandMultiplier => firstNan w x y
  | .addendMultiplierMultiplicand => firstNan w y x

/-- A masked overflow (R106). -/
def overflowResult (s : Bool) (rm : RoundMode) : Fp16 :=
  let toInf := match rm with
    | .rn => true
    | .ru => !s
    | .rd => s
    | .rz => false
  withSign s (if toInf then 0x7C00#15 else 0x7BFF#15)

/-- A tiny result (R107): rounded to a multiple of 2^-24, or flushed under R110 (b). `a` is |r| in units of 2^-48. With
UM = 0 an exact tiny result detects UE, as R107 and R113 say, also where a zero product passes a denormal addend through, of
which a parenthesis of R104 says "no UE" (the model follows R107 and R113: DEDUCED, log 33). -/
def tinyResult (c : LaneControl) (s : Bool) (a : Nat) : Fp16 × FpFlags :=
  let inexact := a % 2 ^ 24 != 0
  if c.ftz && c.um then (withSign s 0#15, { ue := true, pe := true })
  else (withSign s (BitVec.ofNat 15 (roundInt a (2 ^ 24) s c.rm)), { ue := inexact || !c.um, pe := inexact })

/-- Rounding a non-zero exact result (R105 to R108): sign `s`, `a` = |r| in units of 2^-48. `L` is E + 48. -/
def roundFinite (c : LaneControl) (s : Bool) (a : Nat) : Fp16 × FpFlags :=
  let L0 := a.log2
  let m0 := roundInt (a * 2 ^ 10) (2 ^ L0) s c.rm
  let m := if m0 = 2048 then 1024 else m0
  let L := if m0 = 2048 then L0 + 1 else L0
  if 63 < L then (overflowResult s c.rm, { oe := true, pe := true })
  else if 34 ≤ L then
    (withSign s (BitVec.ofNat 5 (L - 33) ++ BitVec.ofNat 10 (m - 1024)), { pe := a * 2 ^ 10 % 2 ^ L0 != 0 })
  else tinyResult c s a

/-- The exact result ±x*y + w of finite operands in units of 2^-48 (R99, R112). -/
def exactFma (neg : Bool) (x y w : Fp16) : Int :=
  (if neg then -(fpVal x * fpVal y) else fpVal x * fpVal y) + fpVal w * 2 ^ 24

/-- The sign of the possibly negated product (R102). -/
def productSign (neg : Bool) (x y : Fp16) : Bool := (fpSign x ^^ fpSign y) ^^ neg

/-- Finite operands (R99, R104, R105), without the DE flag. -/
def fmaFinite (c : LaneControl) (neg : Bool) (x y w : Fp16) : Fp16 × FpFlags :=
  let r := exactFma neg x y w
  if r = 0 then
    if (isZero x || isZero y) && isZero w && productSign neg x y == fpSign w then
      (withSign (fpSign w) 0#15, .empty)
    else (withSign (c.rm == .rd) 0#15, .empty)
  else roundFinite c (decide (r < 0)) r.natAbs

/-- A denormal operand under DAZ (R110 (a)): the zero of the same sign. -/
def flushOperand (c : LaneControl) (h : Fp16) : Fp16 :=
  if c.daz && isDenormal h then withSign (fpSign h) 0#15 else h

/-- No NaN among the operands (R102 to R109). -/
def fmaNumeric (c : LaneControl) (neg : Bool) (x y w : Fp16) : Fp16 × FpFlags :=
  let den := isDenormal x || isDenormal y || isDenormal w
  let sp := productSign neg x y
  if (isInf x && isZero y) || (isZero x && isInf y) || ((isInf x || isInf y) && isInf w && fpSign w != sp) then
    (defaultNan, { ie := true, de := den && c.deOnInvalid })
  else if isInf x || isInf y then (withSign sp 0x7C00#15, { de := den })
  else if isInf w then (w, { de := den })
  else
    let r := fmaFinite c neg x y w
    (r.1, FpFlags.union { de := den } r.2)

/-- `fma16` (R113): one lane, multiplicand `x`, multiplier `y`, addend `w`, with the variants of R110. -/
def fma16 (c : LaneControl) (neg : Bool) (x y w : Fp16) : Fp16 × FpFlags :=
  if isNan x || isNan y || isNan w then
    (selectNan c.nanSelect x y w, { ie := isSnan x || isSnan y || isSnan w })
  else fmaNumeric c neg (flushOperand c x) (flushOperand c y) (flushOperand c w)

end Sys2Proof.Machine
end

