-- ==== Sys2Proof/Machine/Operands.lean ====
section
/-!
DEFINITION. Operands: the element view of a vector, masking, rounding mode, the address of a memory operand and its
elements, and the roles the digits give the operands (10_state.md, 20_memory.md R30 to R49, 40_packed_common.md R80 to R86).
-/

namespace Sys2Proof.Machine

open Sys2Proof

/-! ### Elements (R12, R86) -/

/-- `V.fp16[j]` (R12). -/
def lane (v : Zmm) (j : Nat) : Fp16 := v.extractLsb' (16 * j) 16

/-- The vector whose elements 0..n-1 are `f 0 .. f (n-1)` and whose bits above are 0 (R12, R86). -/
def packLanes (f : Nat → Fp16) : Nat → Zmm
  | 0 => 0
  | n + 1 => packLanes f n ||| ((f n).setWidth 512 <<< (16 * n))

/-! ### Masking (R83) -/

/-- `active[j]` (R83). -/
def State.laneActive (s : State) (m : Masking) (j : Nat) : Bool :=
  match m with
  | .none => true
  | .merge k => (s.kAt k).getLsbD j
  | .zero k => (s.kAt k).getLsbD j

/-- The indices of the active lanes of a form, rising. -/
def State.activeLanes (s : State) (f : Form) : List Nat :=
  (List.range f.vl.lanes).filter fun j => s.laneActive f.mask j

/-! ### Rounding mode (R82) and what a lane is given (R89, R90, R98, R110) -/

/-- The rounding mode of an instruction (R82). -/
def State.roundMode (s : State) (f : Form) : RoundMode :=
  match f.er with
  | some rc => rc
  | none => s.mxcsrRc

/-- The mask bits a lane sees: all ones under embedded rounding (R89, R90). -/
def State.laneMasks (s : State) (f : Form) : BitVec 6 :=
  match f.er with
  | some _ => BitVec.allOnes 6
  | none => s.mxcsrMasks

/-- What all lanes of an instruction share. -/
def State.laneControl (s : State) (f : Form) : LaneControl where
  rm := s.roundMode f
  masks := s.laneMasks f
  daz := s.config.fp16HonoursDazFtz && s.mxcsrDaz
  ftz := s.config.fp16HonoursDazFtz && s.mxcsrFtz
  deOnInvalid := s.config.deOnInvalidLane
  nanSelect := s.config.nanSelect

/-! ### The address of a memory operand (R36 to R38) -/

/-- The last segment override among the prefixes (R66: the last one wins). -/
def segOverride : List LegacyPrefix → Option LegacyPrefix
  | [] => none
  | .addr32 :: ps => segOverride ps
  | p :: ps => some ((segOverride ps).getD p)

/-- An address-size prefix is present (R36). -/
def hasAddr32 (ps : List LegacyPrefix) : Bool := ps.contains .addr32

/-- N, the scale of a disp8 (R37). -/
def dispScale (vl : VecLen) (bcst : Bool) : Nat := if bcst then 2 else vl.bits / 8

/-- The displacement as a 64-bit value (R36, R37). -/
def dispValue (n : Nat) : Disp → Addr
  | .none => 0
  | .d8 d => d.signExtend 64 * BitVec.ofNat 64 n
  | .d32 d => d.signExtend 64

/-- The index value: 0 for index number 4 (R36). -/
def State.indexValue (s : State) (index : Gpr) (scale : BitVec 2) : Addr :=
  if index = 4#4 then 0 else s.gprAt index <<< scale.toNat

/-- The effective address before the address-size prefix acts (R36). `next` is rip + ilen, `n` the disp8 scale. -/
def State.rawAddress (s : State) (next : Addr) (n : Nat) : MemOperand → Addr
  | .baseDisp _ base disp => s.gprAt base + dispValue n disp
  | .ripRel _ _ disp => next + disp.signExtend 64
  | .sib base index scale disp => s.gprAt base + s.indexValue index scale + dispValue n disp
  | .sibNoBase _ index scale disp => s.indexValue index scale + disp.signExtend 64

/-- The effective address (R36): its low 32 bits under an address-size prefix. -/
def State.effectiveAddress (s : State) (f : Form) (bcst : Bool) (m : MemOperand) : Addr :=
  let ea := s.rawAddress (s.rip + BitVec.ofNat 64 f.ilen) (dispScale f.vl bcst) m
  if hasAddr32 f.pfx then (ea.setWidth 32).setWidth 64 else ea

/-- The segment base (R21, R38). -/
def State.segBase (s : State) (f : Form) : Addr :=
  match segOverride f.pfx with
  | some .fs => s.fsBase
  | some .gs => s.gsBase
  | _ => 0

/-- `la` (R38). -/
def State.linearAddress (s : State) (f : Form) (bcst : Bool) (m : MemOperand) : Addr :=
  s.segBase f + s.effectiveAddress f bcst m

/-- The base register is RSP or RBP (R36). -/
def stackBase : MemOperand → Bool
  | .baseDisp _ base _ => base == 4#4 || base == 5#4
  | .sib base _ _ _ => base == 4#4 || base == 5#4
  | .ripRel _ _ _ => false
  | .sibNoBase _ _ _ _ => false

/-- The segment used is SS (R36, R133): an SS override, or no override and an RSP or RBP base. -/
def usesStackSegment (f : Form) (m : MemOperand) : Bool :=
  match segOverride f.pfx with
  | some .ss => true
  | none => stackBase m
  | _ => false

/-- The bytes of the operand (R31): 2 for a broadcast, else VL/8. -/
def operandSize (vl : VecLen) (bcst : Bool) : Nat := if bcst then 2 else vl.bits / 8

/-- Every byte of the operand, needed or not, has a canonical address (R35, R38). -/
def State.operandCanonical (s : State) (f : Form) (bcst : Bool) (la : Addr) : Bool :=
  (List.range (operandSize f.vl bcst)).all fun i => s.canonical (la + BitVec.ofNat 64 i)

/-- The address of the element that lane j uses (R32, R33). -/
def elementAddress (bcst : Bool) (la : Addr) (j : Nat) : Addr :=
  if bcst then la else la + BitVec.ofNat 64 (2 * j)

/-- The needed bytes (R35): both bytes of the element of every active lane. -/
def State.neededBytes (s : State) (f : Form) (bcst : Bool) (la : Addr) : List Addr :=
  (s.activeLanes f).flatMap fun j => [elementAddress bcst la j, elementAddress bcst la j + 1]

/-! ### Roles (R80) -/

/-- One lane of an instruction (R80, R90): `d`, `s2`, `t3` are the lane's elements of operands 1, 2 and 3. -/
def laneFma (c : LaneControl) (digits : Digits) (neg : Bool) (d s2 t3 : Fp16) : Fp16 × FpFlags :=
  match digits with
  | .d132 => fma16 c neg d t3 s2
  | .d213 => fma16 c neg s2 d t3
  | .d231 => fma16 c neg s2 t3 d

end Sys2Proof.Machine
end

