-- ==== Sys2Proof/Machine/Packed.lean ====
section
/-!
DEFINITION. `ExecPacked` (40_packed_common.md R90): the checks of 60_exceptions.md R131 and R132 in the order of R139, the
third source (20_memory.md R49), the lanes, and what their flags decide (R88).
-/

namespace Sys2Proof.Machine

open Sys2Proof

/-- The outcome of an instruction. -/
abbrev Result := Host.Outcome State Fault Refusal

/-- Raise an exception (R140, R141). -/
def raiseException (e : Exception) (s : State) : Result := .next (s.takeException e)

/-- A SIMD floating-point exception (R137): #XM, or #UD when CR4.OSXMMEXCPT = 0. -/
def State.simdException (s : State) : Exception := if s.osxmmexcpt then .xm else .ud

/-- A CPUID feature that the form needs is missing (R3, R22, U6, U7). -/
def State.featureMissing (s : State) (f : Form) : Bool :=
  !s.config.hasAvx512f || !s.config.hasAvx512Fp16 || (f.vl != .v512 && !s.config.hasAvx512Vl)

/-- The result and flags of lane j (R90), `t3` being the third-source elements. -/
def State.laneResult (s : State) (f : Form) (t3 : Nat → Fp16) (j : Nat) : Fp16 × FpFlags :=
  laneFma (s.laneControl f) f.digits f.neg (lane (s.zmmAt f.dest) j) (lane (s.zmmAt f.src2) j) (t3 j)

/-- The launch has the registers that the form names (R7: NVEC, NMASK, and KW for the mask bits it reads). -/
def State.hasRegisters (s : State) (f : Form) : Bool :=
  decide (f.dest.toNat < s.config.nVec) && decide (f.src2.toNat < s.config.nVec) &&
    (match f.src3 with
      | .reg r => decide (r.toNat < s.config.nVec)
      | .mem _ _ => true) &&
    (match f.mask with
      | .none => true
      | .merge k => decide (k.toNat < s.config.nMask) && decide (f.vl.lanes ≤ s.config.maskWidth)
      | .zero k => decide (k.toNat < s.config.nMask) && decide (f.vl.lanes ≤ s.config.maskWidth))

/-- The flags detected in the active lanes, all together (R88). -/
def State.detected (s : State) (f : Form) (t3 : Nat → Fp16) : FpFlags :=
  (s.activeLanes f).foldr (fun j acc => (s.laneResult f t3 j).2.union acc) .empty

/-- Element j of the new destination (R83, R85). -/
def State.newLane (s : State) (f : Form) (t3 : Nat → Fp16) (j : Nat) : Fp16 :=
  if s.laneActive f.mask j then (s.laneResult f t3 j).1
  else match f.mask with
    | .zero _ => 0
    | _ => lane (s.zmmAt f.dest) j

/-- The new destination register: the elements, and 0 in bits MAXVL-1:VL (R86). -/
def State.newDest (s : State) (f : Form) (t3 : Nat → Fp16) : VecReg :=
  { low := packLanes (s.newLane f t3) f.vl.lanes, high := 0 }

/-- The instruction completes (R24, R90): the destination is written, the flags are ORed into MXCSR, RIP advances. -/
def State.complete (s : State) (f : Form) (t3 : Nat → Fp16) (flags : FpFlags) : State :=
  ((s.orFlags flags).setZmm f.dest (s.newDest f t3)).setRip (s.rip + BitVec.ofNat 64 f.ilen)

/-- The lanes, and what their flags decide (R88, R89, R90). -/
def execLanes (f : Form) (t3 : Nat → Fp16) (s : State) : Result :=
  let all := s.detected f t3
  if f.er.isSome then .next (s.complete f t3 .empty)
  else if all.pre.unmasked s.mxcsrMasks then raiseException s.simdException (s.orFlags all.pre)
  else if all.post.unmasked s.mxcsrMasks then raiseException s.simdException (s.orFlags all)
  else .next (s.complete f t3 all)

/-- A memory operand 3 (R49): its canonical check, its needed bytes, then the lanes. -/
def execMemory (f : Form) (bcst : Bool) (m : MemOperand) (s : State) : Result :=
  let la := s.linearAddress f bcst m
  if !s.operandCanonical f bcst la then raiseException (if usesStackSegment f m then .ss else .gp) s
  else match s.loadStatus (s.neededBytes f bcst la) with
    | .pageFault addr code => raiseException (.pf code addr) s
    | .device => .refused .deviceMemory
    | .absent => .fault .absentMemory
    | .ok => execLanes f (fun j => s.element (elementAddress bcst la j)) s

/-- `ExecPacked` (R90) with the checks in the order of R139; a mode that is neither 64-bit, real-address nor
virtual-8086 is declined (D1), and, after the checks that need no operand, a launch without the registers named (the
model's choice, log 24). -/
def execPacked (f : Form) (s : State) : Result :=
  if s.realOrVm86 then raiseException .ud s
  else if !s.in64BitMode then .refused .not64BitMode
  else if s.featureMissing f || !s.osEnabled then raiseException .ud s
  else if s.taskSwitched then raiseException .nm s
  else if !s.hasRegisters f then .refused .registerAbsent
  else match f.src3 with
    | .reg r => execLanes f (fun j => lane (s.zmmAt r) j) s
    | .mem bcst m => execMemory f bcst m s

end Sys2Proof.Machine
end

