-- ==== Sys2Proof/Machine/Vfmadd.lean ====
section
/-!
DEFINITION. The meanings of VFMADD132PH, VFMADD213PH and VFMADD231PH (42_vfmadd_ph.md), one definition per row of the opcode table.
-/

namespace Sys2Proof.Machine

open Sys2Proof

/-- VFMADD132PH with embedded rounding (R120, R59, R89): op1 := op1 * op3 + op2. -/
def execVfmadd132phEr (o : ErForm) (s : State) : Result := execPacked (erForm .d132 false o) s

/-- VFMADD132PH, 128 bits (R120): op1 := op1 * op3 + op2. -/
def execVfmadd132ph128 (o : PlainForm) (s : State) : Result := execPacked (plainForm .d132 false .v128 o) s

/-- VFMADD132PH, 256 bits (R120): op1 := op1 * op3 + op2. -/
def execVfmadd132ph256 (o : PlainForm) (s : State) : Result := execPacked (plainForm .d132 false .v256 o) s

/-- VFMADD132PH, 512 bits (R120): op1 := op1 * op3 + op2. -/
def execVfmadd132ph512 (o : PlainForm) (s : State) : Result := execPacked (plainForm .d132 false .v512 o) s

/-- VFMADD213PH with embedded rounding (R121, R59, R89): op1 := op2 * op1 + op3. -/
def execVfmadd213phEr (o : ErForm) (s : State) : Result := execPacked (erForm .d213 false o) s

/-- VFMADD213PH, 128 bits (R121): op1 := op2 * op1 + op3. -/
def execVfmadd213ph128 (o : PlainForm) (s : State) : Result := execPacked (plainForm .d213 false .v128 o) s

/-- VFMADD213PH, 256 bits (R121): op1 := op2 * op1 + op3. -/
def execVfmadd213ph256 (o : PlainForm) (s : State) : Result := execPacked (plainForm .d213 false .v256 o) s

/-- VFMADD213PH, 512 bits (R121): op1 := op2 * op1 + op3. -/
def execVfmadd213ph512 (o : PlainForm) (s : State) : Result := execPacked (plainForm .d213 false .v512 o) s

/-- VFMADD231PH with embedded rounding (R122, R59, R89): op1 := op2 * op3 + op1. -/
def execVfmadd231phEr (o : ErForm) (s : State) : Result := execPacked (erForm .d231 false o) s

/-- VFMADD231PH, 128 bits (R122): op1 := op2 * op3 + op1. -/
def execVfmadd231ph128 (o : PlainForm) (s : State) : Result := execPacked (plainForm .d231 false .v128 o) s

/-- VFMADD231PH, 256 bits (R122): op1 := op2 * op3 + op1. -/
def execVfmadd231ph256 (o : PlainForm) (s : State) : Result := execPacked (plainForm .d231 false .v256 o) s

/-- VFMADD231PH, 512 bits (R122): op1 := op2 * op3 + op1. -/
def execVfmadd231ph512 (o : PlainForm) (s : State) : Result := execPacked (plainForm .d231 false .v512 o) s

end Sys2Proof.Machine
end

