-- ==== Sys2Proof/Machine/Vfnmadd.lean ====
section
/-!
DEFINITION. The meanings of VFNMADD132PH, VFNMADD213PH and VFNMADD231PH (43_vfnmadd_ph.md), one definition per row of the opcode table.
-/

namespace Sys2Proof.Machine

open Sys2Proof

/-- VFNMADD132PH with embedded rounding (R123, R59, R89): op1 := -(op1 * op3) + op2. -/
def execVfnmadd132phEr (o : ErForm) (s : State) : Result := execPacked (erForm .d132 true o) s

/-- VFNMADD132PH, 128 bits (R123): op1 := -(op1 * op3) + op2. -/
def execVfnmadd132ph128 (o : PlainForm) (s : State) : Result := execPacked (plainForm .d132 true .v128 o) s

/-- VFNMADD132PH, 256 bits (R123): op1 := -(op1 * op3) + op2. -/
def execVfnmadd132ph256 (o : PlainForm) (s : State) : Result := execPacked (plainForm .d132 true .v256 o) s

/-- VFNMADD132PH, 512 bits (R123): op1 := -(op1 * op3) + op2. -/
def execVfnmadd132ph512 (o : PlainForm) (s : State) : Result := execPacked (plainForm .d132 true .v512 o) s

/-- VFNMADD213PH with embedded rounding (R124, R59, R89): op1 := -(op2 * op1) + op3. -/
def execVfnmadd213phEr (o : ErForm) (s : State) : Result := execPacked (erForm .d213 true o) s

/-- VFNMADD213PH, 128 bits (R124): op1 := -(op2 * op1) + op3. -/
def execVfnmadd213ph128 (o : PlainForm) (s : State) : Result := execPacked (plainForm .d213 true .v128 o) s

/-- VFNMADD213PH, 256 bits (R124): op1 := -(op2 * op1) + op3. -/
def execVfnmadd213ph256 (o : PlainForm) (s : State) : Result := execPacked (plainForm .d213 true .v256 o) s

/-- VFNMADD213PH, 512 bits (R124): op1 := -(op2 * op1) + op3. -/
def execVfnmadd213ph512 (o : PlainForm) (s : State) : Result := execPacked (plainForm .d213 true .v512 o) s

/-- VFNMADD231PH with embedded rounding (R125, R59, R89): op1 := -(op2 * op3) + op1. -/
def execVfnmadd231phEr (o : ErForm) (s : State) : Result := execPacked (erForm .d231 true o) s

/-- VFNMADD231PH, 128 bits (R125): op1 := -(op2 * op3) + op1. -/
def execVfnmadd231ph128 (o : PlainForm) (s : State) : Result := execPacked (plainForm .d231 true .v128 o) s

/-- VFNMADD231PH, 256 bits (R125): op1 := -(op2 * op3) + op1. -/
def execVfnmadd231ph256 (o : PlainForm) (s : State) : Result := execPacked (plainForm .d231 true .v256 o) s

/-- VFNMADD231PH, 512 bits (R125): op1 := -(op2 * op3) + op1. -/
def execVfnmadd231ph512 (o : PlainForm) (s : State) : Result := execPacked (plainForm .d231 true .v512 o) s

end Sys2Proof.Machine
end

