-- ==== Sys2Proof/Machine/Dispatch.lean ====
section
/-!
DEFINITION. The instructions' dispatch: one arm per constructor of `Instr`.
-/

namespace Sys2Proof.Machine

open Sys2Proof

def exec (i : Instr) (s : State) : Host.Outcome State Fault Refusal :=
  match i with
  | .vfmadd132phEr o => Sys2Proof.Machine.execVfmadd132phEr o s
  | .vfmadd132ph128 o => Sys2Proof.Machine.execVfmadd132ph128 o s
  | .vfmadd132ph256 o => Sys2Proof.Machine.execVfmadd132ph256 o s
  | .vfmadd132ph512 o => Sys2Proof.Machine.execVfmadd132ph512 o s
  | .vfmadd213phEr o => Sys2Proof.Machine.execVfmadd213phEr o s
  | .vfmadd213ph128 o => Sys2Proof.Machine.execVfmadd213ph128 o s
  | .vfmadd213ph256 o => Sys2Proof.Machine.execVfmadd213ph256 o s
  | .vfmadd213ph512 o => Sys2Proof.Machine.execVfmadd213ph512 o s
  | .vfmadd231phEr o => Sys2Proof.Machine.execVfmadd231phEr o s
  | .vfmadd231ph128 o => Sys2Proof.Machine.execVfmadd231ph128 o s
  | .vfmadd231ph256 o => Sys2Proof.Machine.execVfmadd231ph256 o s
  | .vfmadd231ph512 o => Sys2Proof.Machine.execVfmadd231ph512 o s
  | .vfnmadd132phEr o => Sys2Proof.Machine.execVfnmadd132phEr o s
  | .vfnmadd132ph128 o => Sys2Proof.Machine.execVfnmadd132ph128 o s
  | .vfnmadd132ph256 o => Sys2Proof.Machine.execVfnmadd132ph256 o s
  | .vfnmadd132ph512 o => Sys2Proof.Machine.execVfnmadd132ph512 o s
  | .vfnmadd213phEr o => Sys2Proof.Machine.execVfnmadd213phEr o s
  | .vfnmadd213ph128 o => Sys2Proof.Machine.execVfnmadd213ph128 o s
  | .vfnmadd213ph256 o => Sys2Proof.Machine.execVfnmadd213ph256 o s
  | .vfnmadd213ph512 o => Sys2Proof.Machine.execVfnmadd213ph512 o s
  | .vfnmadd231phEr o => Sys2Proof.Machine.execVfnmadd231phEr o s
  | .vfnmadd231ph128 o => Sys2Proof.Machine.execVfnmadd231ph128 o s
  | .vfnmadd231ph256 o => Sys2Proof.Machine.execVfnmadd231ph256 o s
  | .vfnmadd231ph512 o => Sys2Proof.Machine.execVfnmadd231ph512 o s

end Sys2Proof.Machine
end

