-- ==== Sys2Proof/WellFormed.lean ====
section
/-!
DEFINITION. Which instructions of `Instr` have an encoding: the conditions of 30_encoding.md R58, R61, R63.
-/

namespace Sys2Proof

/-- A writemask is one of k1..k7 (R14, R61). -/
def Masking.wf : Masking → Bool
  | .none => true
  | .merge k => k != 0
  | .zero k => k != 0

/-- With mod = 00b the base field 101b does not name a base (R36, R58). -/
def dispFits (base : Gpr) : Disp → Bool
  | .none => base.extractLsb' 0 3 != 5#3
  | .d8 _ => true
  | .d32 _ => true

/-- A base field of 100b asks for a SIB byte (R58), so it names no base of a form without one. -/
def MemOperand.wf : MemOperand → Bool
  | .baseDisp _ base disp => base.extractLsb' 0 3 != 4#3 && dispFits base disp
  | .ripRel _ _ _ => true
  | .sib base _ _ disp => dispFits base disp
  | .sibNoBase _ _ _ _ => true

def Src3.wf : Src3 → Bool
  | .reg _ => true
  | .mem _ m => m.wf

/-- An encodable form: a legal mask, an encodable operand 3, at most 15 bytes (R63). -/
def Form.wf (f : Form) : Bool := f.mask.wf && f.src3.wf && decide (f.ilen ≤ maxInstrLen)

/-- An encodable instruction. -/
def Instr.wf (i : Instr) : Bool := i.form.wf

end Sys2Proof
end

