-- ==== Sys2Proof/Decode.lean ====
section
/-!
DEFINITION. The decoder of 30_encoding.md R50 to R66, total on any bytes, then the encoder from the same tables, and the
machine-readable opcode table of R73.
-/

namespace Sys2Proof

/-- What a byte string decodes to (R66). `truncated` says that the bytes end before R66 has its answer; `family` whether
the bytes up to the opcode are those of this family. -/
inductive DecodeResult where
  | form (i : Instr)
  | ud
  | gp0
  | notThisFamily
  | truncated (family : Bool)
deriving DecidableEq, Repr

/-- The accepted legacy prefixes (R62). -/
def prefixOf (b : Byte) : Option LegacyPrefix :=
  if b = 0x26#8 then some .es
  else if b = 0x2E#8 then some .cs
  else if b = 0x36#8 then some .ss
  else if b = 0x3E#8 then some .ds
  else if b = 0x64#8 then some .fs
  else if b = 0x65#8 then some .gs
  else if b = 0x67#8 then some .addr32
  else none

/-- The byte of an accepted legacy prefix (R62). -/
def prefixByte : LegacyPrefix → Byte
  | .es => 0x26#8
  | .cs => 0x2E#8
  | .ss => 0x36#8
  | .ds => 0x3E#8
  | .fs => 0x64#8
  | .gs => 0x65#8
  | .addr32 => 0x67#8

/-- The prefixes that raise #UD before 62H: 66H, LOCK, REPNE, REP and REX 40H..4FH (R62, U5). -/
def badPrefix (b : Byte) : Bool :=
  b == 0x66#8 || b == 0xF0#8 || b == 0xF2#8 || b == 0xF3#8 || b.extractLsb' 4 4 == 4#4

/-- The bytes after the prefixes, the accepted prefixes in order, and whether a #UD prefix stood among them. -/
structure PrefixScan where
  pfx : List LegacyPrefix
  bad : Bool
  rest : List Byte
deriving DecidableEq, Repr

/-- The prefix loop of `Decode` (R66). -/
def scanPrefixes : List Byte → PrefixScan
  | [] => { pfx := [], bad := false, rest := [] }
  | b :: bs =>
    match prefixOf b with
    | some p =>
      let r := scanPrefixes bs
      { pfx := p :: r.pfx, bad := r.bad, rest := r.rest }
    | none =>
      if badPrefix b then
        let r := scanPrefixes bs
        { pfx := r.pfx, bad := true, rest := r.rest }
      else { pfx := [], bad := false, rest := b :: bs }

/-- The opcode bytes of the family (R55). -/
def opcodeOf (b : Byte) : Option (Digits × Bool) :=
  if b = 0x98#8 then some (.d132, false)
  else if b = 0xA8#8 then some (.d213, false)
  else if b = 0xB8#8 then some (.d231, false)
  else if b = 0x9C#8 then some (.d132, true)
  else if b = 0xAC#8 then some (.d213, true)
  else if b = 0xBC#8 then some (.d231, true)
  else none

/-- The opcode byte of the digits and sign (R55). -/
def opcodeByte : Digits → Bool → Byte
  | .d132, false => 0x98#8
  | .d213, false => 0xA8#8
  | .d231, false => 0xB8#8
  | .d132, true => 0x9C#8
  | .d213, true => 0xAC#8
  | .d231, true => 0xBC#8

/-- mmm = 110b, pp = 01b, W = 0 (R52, R53, R66). -/
def inFamily (p0 p1 : Byte) : Bool :=
  p0.extractLsb' 0 3 == 6#3 && p1.extractLsb' 0 2 == 1#2 && !p1.getLsbD 7

/-- A 32-bit displacement, little-endian (R58). -/
def le32 (b0 b1 b2 b3 : Byte) : BitVec 32 := b3 ++ b2 ++ b1 ++ b0

/-- The displacement that ModRM.mod asks for (R58), from the bytes after ModRM and SIB. -/
def readDisp (mod : BitVec 2) (bs : List Byte) : Option Disp :=
  if mod = 0#2 then some .none
  else if mod = 1#2 then
    match bs with
    | b :: _ => some (.d8 b)
    | [] => none
  else
    match bs with
    | b0 :: b1 :: b2 :: b3 :: _ => some (.d32 (le32 b0 b1 b2 b3))
    | _ => none

/-- The disp32 of the forms that always carry one (R58). -/
def readDisp32 : List Byte → Option (BitVec 32)
  | b0 :: b1 :: b2 :: b3 :: _ => some (le32 b0 b1 b2 b3)
  | _ => none

/-- The memory operand of a SIB byte (R36, R58). `x` and `b` are EVEX.X and EVEX.B, un-inverted. -/
def readSib (x b : BitVec 1) (mod : BitVec 2) (sib : Byte) (bs : List Byte) : Option MemOperand :=
  let scale := sib.extractLsb' 6 2
  let index : Gpr := x ++ sib.extractLsb' 3 3
  if mod = 0#2 ∧ sib.extractLsb' 0 3 = 5#3 then
    (readDisp32 bs).map fun d => .sibNoBase (b == 1#1) index scale d
  else (readDisp mod bs).map fun d => .sib (b ++ sib.extractLsb' 0 3) index scale d

/-- The memory operand of ModRM with mod ≠ 11b (R36, R58); `none` when the bytes end too early. -/
def readMem (x b : BitVec 1) (mod : BitVec 2) (rm : BitVec 3) (bs : List Byte) : Option MemOperand :=
  if rm = 4#3 then
    match bs with
    | sib :: rest => readSib x b mod sib rest
    | [] => none
  else if mod = 0#2 ∧ rm = 5#3 then
    (readDisp32 bs).map fun d => .ripRel (x == 1#1) (b == 1#1) d
  else (readDisp mod bs).map fun d => .baseDisp (x == 1#1) (b ++ rm) d

/-- The masking of EVEX.z and EVEX.aaa; `none` for z = 1 with aaa = 000b, which is #UD (R61, U4). -/
def maskingOf (z : Bool) (aaa : BitVec 3) : Option Masking :=
  if aaa = 0#3 then (if z then none else some .none)
  else some (if z then .zero aaa else .merge aaa)

/-- The 128-, 256- or 512-bit row of L'L, or #UD for 11b (R59, U3). -/
def decodePlain (d : Digits) (neg : Bool) (ll : BitVec 2) (o : PlainForm) : DecodeResult :=
  match vecLenOf ll with
  | some vl => .form (mkPlain d neg vl o)
  | none => .ud

/-- Operand 1 (R57): R' ++ R ++ ModRM.reg, R and R' stored inverted. -/
def destOf (p0 modrm : Byte) : VReg :=
  ~~~(p0.extractLsb' 4 1) ++ ~~~(p0.extractLsb' 7 1) ++ modrm.extractLsb' 3 3

/-- Operand 2 (R57): V' ++ vvvv, stored inverted. -/
def src2Of (p1 p2 : Byte) : VReg := ~~~(p2.extractLsb' 3 1) ++ ~~~(p1.extractLsb' 3 4)

/-- EVEX.X (R52), un-inverted. -/
def evexX (p0 : Byte) : BitVec 1 := ~~~(p0.extractLsb' 6 1)

/-- EVEX.B (R52), un-inverted. -/
def evexB (p0 : Byte) : BitVec 1 := ~~~(p0.extractLsb' 5 1)

/-- A register operand 3 (R57): X ++ B ++ ModRM.rm. -/
def src3Of (p0 modrm : Byte) : VReg := evexX p0 ++ evexB p0 ++ modrm.extractLsb' 0 3

/-- The register forms, ModRM.mod = 11b (R57, R59 to R61): b = 1 is embedded rounding whatever L'L holds. -/
def decodeReg (d : Digits) (neg : Bool) (pfx : List LegacyPrefix) (p0 p1 p2 modrm : Byte) (mask : Masking) :
    DecodeResult :=
  if p2.getLsbD 4 then
    .form (mkEr d neg
      { pfx := pfx, dest := destOf p0 modrm, src2 := src2Of p1 p2, src3 := src3Of p0 modrm, mask := mask,
        rc := roundModeOf (p2.extractLsb' 5 2) })
  else
    decodePlain d neg (p2.extractLsb' 5 2)
      { pfx := pfx, dest := destOf p0 modrm, src2 := src2Of p1 p2, src3 := .reg (src3Of p0 modrm), mask := mask }

/-- The memory forms (R57, R59 to R61): b = 1 is a broadcast. L'L = 11b is #UD before SIB and displacement are parsed. -/
def decodeMem (d : Digits) (neg : Bool) (pfx : List LegacyPrefix) (p0 p1 p2 modrm : Byte) (mask : Masking)
    (rest : List Byte) : DecodeResult :=
  match vecLenOf (p2.extractLsb' 5 2) with
  | none => .ud
  | some vl =>
    match readMem (evexX p0) (evexB p0) (modrm.extractLsb' 6 2) (modrm.extractLsb' 0 3) rest with
    | none => .truncated true
    | some m =>
      .form (mkPlain d neg vl
        { pfx := pfx, dest := destOf p0 modrm, src2 := src2Of p1 p2, src3 := .mem (p2.getLsbD 4) m, mask := mask })

/-- The #UD conditions U1, U2 and U5 on the prefix bytes (R64). -/
def badEvex (bad : Bool) (p0 p1 : Byte) : Bool := bad || p0.getLsbD 3 || !p1.getLsbD 2

/-- The decoder after the family test and U1, U2, U5 (R66), in its order: U3 and U4 before SIB and displacement. -/
def decodeFamily (pfx : List LegacyPrefix) (d : Digits) (neg : Bool) (p0 p1 p2 modrm : Byte) (rest : List Byte) :
    DecodeResult :=
  match maskingOf (p2.getLsbD 7) (p2.extractLsb' 0 3) with
  | none => .ud
  | some mask =>
    if modrm.extractLsb' 6 2 = 3#2 then decodeReg d neg pfx p0 p1 p2 modrm mask
    else decodeMem d neg pfx p0 p1 p2 modrm mask rest

/-- The bytes after the escape byte 62H (R66), in its order: P0, P1, P2, opcode and ModRM are taken, then the family test,
then U1, U2, U5, then the rest. Where ModRM alone is missing the bytes before it still tell whether the family test would
pass. -/
def decodeAfterEscape (sc : PrefixScan) : List Byte → DecodeResult
  | p0 :: p1 :: p2 :: op :: modrm :: rest =>
    match opcodeOf op with
    | none => .notThisFamily
    | some (d, neg) =>
      if !inFamily p0 p1 then .notThisFamily
      else if badEvex sc.bad p0 p1 then .ud
      else decodeFamily sc.pfx d neg p0 p1 p2 modrm rest
  | [p0, p1, _, op] => .truncated (inFamily p0 p1 && (opcodeOf op).isSome)
  | _ => .truncated false

/-- The bytes from 62H on (R66). -/
def decodeEvex (sc : PrefixScan) : DecodeResult :=
  match sc.rest with
  | [] => .truncated false
  | esc :: tail => if esc ≠ 0x62#8 then .notThisFamily else decodeAfterEscape sc tail

/-- The last test of R66: a form of more than 15 bytes is #GP(0) (R63). -/
def limitLength : DecodeResult → DecodeResult
  | .form i => if i.ilen ≤ maxInstrLen then .form i else .gp0
  | .ud => .ud
  | .gp0 => .gp0
  | .notThisFamily => .notThisFamily
  | .truncated family => .truncated family

/-- The decoder, total on any bytes, in the order of R66: the family test first, then the #UD conditions, then the length.
(R139 lists the length before #UD and says that their order never matters; the model follows R66, log 13.) -/
def decode (bs : List Byte) : DecodeResult := limitLength (decodeEvex (scanPrefixes bs))

/-- The bytes that ModRM.mod makes a displacement take (R58). -/
def dispLength (mod : BitVec 2) : Nat := if mod = 1#2 then 1 else if mod = 2#2 then 4 else 0

/-- The bytes of SIB and displacement that ModRM and the bytes after it ask for (R58); a missing SIB asks for no disp32 of
its own. -/
def extraLength (modrm : Byte) (rest : List Byte) : Nat :=
  let mod := modrm.extractLsb' 6 2
  let rm := modrm.extractLsb' 0 3
  if mod = 3#2 then 0
  else if rm = 4#3 then
    match rest with
    | sib :: _ => if mod = 0#2 ∧ sib.extractLsb' 0 3 = 5#3 then 5 else 1 + dispLength mod
    | [] => 1 + dispLength mod
  else if mod = 0#2 ∧ rm = 5#3 then 4
  else dispLength mod

/-- The length by R63 of the instruction that the bytes begin, also where R66 answers without one: the prefix bytes, six
bytes from 62H to ModRM, SIB and displacement. Where ModRM or SIB is missing it is the least length possible. -/
def shapeLength (bs : List Byte) : Nat :=
  let rest := (scanPrefixes bs).rest
  bs.length - rest.length + 6 +
    match rest with
    | _ :: _ :: _ :: _ :: _ :: modrm :: more => extraLength modrm more
    | _ => 0

/-! ### The encoder -/

/-- P0 (R52). -/
def encodeP0 (dest : VReg) (x b : BitVec 1) : Byte :=
  ~~~(dest.extractLsb' 3 1) ++ ~~~x ++ ~~~b ++ ~~~(dest.extractLsb' 4 1) ++ 0b0110#4

/-- P1 (R53). -/
def encodeP1 (src2 : VReg) : Byte := 0#1 ++ ~~~(src2.extractLsb' 0 4) ++ 0b101#3

/-- P2 (R54). -/
def encodeP2 (z : Bool) (ll : BitVec 2) (b : Bool) (src2 : VReg) (aaa : BitVec 3) : Byte :=
  BitVec.ofBool z ++ ll ++ BitVec.ofBool b ++ ~~~(src2.extractLsb' 4 1) ++ aaa

/-- EVEX.z (R61). -/
def Masking.z : Masking → Bool
  | .zero _ => true
  | _ => false

/-- EVEX.aaa (R61). -/
def Masking.aaa : Masking → BitVec 3
  | .none => 0#3
  | .merge k => k
  | .zero k => k

/-- EVEX.X of operand 3 (R52). -/
def Src3.x : Src3 → BitVec 1
  | .reg r => r.extractLsb' 4 1
  | .mem _ (.baseDisp x _ _) => BitVec.ofBool x
  | .mem _ (.ripRel x _ _) => BitVec.ofBool x
  | .mem _ (.sib _ index _ _) => index.extractLsb' 3 1
  | .mem _ (.sibNoBase _ index _ _) => index.extractLsb' 3 1

/-- EVEX.B of operand 3 (R52). -/
def Src3.b : Src3 → BitVec 1
  | .reg r => r.extractLsb' 3 1
  | .mem _ (.baseDisp _ base _) => base.extractLsb' 3 1
  | .mem _ (.ripRel _ b _) => BitVec.ofBool b
  | .mem _ (.sib base _ _ _) => base.extractLsb' 3 1
  | .mem _ (.sibNoBase b _ _ _) => BitVec.ofBool b

/-- ModRM.mod of a displacement (R58). -/
def Disp.mod : Disp → BitVec 2
  | .none => 0#2
  | .d8 _ => 1#2
  | .d32 _ => 2#2

/-- ModRM.mod (R56). -/
def Src3.mod : Src3 → BitVec 2
  | .reg _ => 3#2
  | .mem _ (.baseDisp _ _ d) => d.mod
  | .mem _ (.ripRel _ _ _) => 0#2
  | .mem _ (.sib _ _ _ d) => d.mod
  | .mem _ (.sibNoBase _ _ _ _) => 0#2

/-- ModRM.rm (R56). -/
def Src3.rm : Src3 → BitVec 3
  | .reg r => r.extractLsb' 0 3
  | .mem _ (.baseDisp _ base _) => base.extractLsb' 0 3
  | .mem _ (.ripRel _ _ _) => 5#3
  | .mem _ (.sib _ _ _ _) => 4#3
  | .mem _ (.sibNoBase _ _ _ _) => 4#3

/-- EVEX.b (R60): embedded rounding, or a broadcast. -/
def Form.b (f : Form) : Bool :=
  match f.er with
  | some _ => true
  | none =>
    match f.src3 with
    | .reg _ => false
    | .mem bcst _ => bcst

/-- The two bits of L'L or EVEX.RC (R59). -/
def Form.ll (f : Form) : BitVec 2 :=
  match f.er with
  | some rc => roundModeBits rc
  | none => vecLenBits f.vl

/-- The four bytes of a disp32, low byte first (R58). -/
def bytes32 (d : BitVec 32) : List Byte :=
  [d.extractLsb' 0 8, d.extractLsb' 8 8, d.extractLsb' 16 8, d.extractLsb' 24 8]

/-- The displacement bytes (R58). -/
def Disp.bytes : Disp → List Byte
  | .none => []
  | .d8 d => [d]
  | .d32 d => bytes32 d

/-- SIB and displacement (R58). -/
def Src3.extraBytes : Src3 → List Byte
  | .reg _ => []
  | .mem _ (.baseDisp _ _ d) => d.bytes
  | .mem _ (.ripRel _ _ d) => bytes32 d
  | .mem _ (.sib base index scale d) => (scale ++ index.extractLsb' 0 3 ++ base.extractLsb' 0 3 : Byte) :: d.bytes
  | .mem _ (.sibNoBase _ index scale d) => (scale ++ index.extractLsb' 0 3 ++ 5#3 : Byte) :: bytes32 d

/-- The six fixed bytes: 62H P0 P1 P2 opcode ModRM (R50). -/
def Form.head (f : Form) : List Byte :=
  [0x62#8, encodeP0 f.dest f.src3.x f.src3.b, encodeP1 f.src2,
    encodeP2 f.mask.z f.ll f.b f.src2 f.mask.aaa, opcodeByte f.digits f.neg,
    (f.src3.mod ++ f.dest.extractLsb' 0 3 ++ f.src3.rm : Byte)]

/-- The bytes of an instruction (R50). -/
def encode (i : Instr) : List Byte :=
  i.form.pfx.map prefixByte ++ i.form.head ++ i.form.src3.extraBytes

/-! ### Bytes given as one number -/

/-- Byte k of an instruction of `nbits` bits given as the number `w`, bit 0 the least significant bit of the first byte;
bits above `nbits` are 0. -/
def wordByte (nbits w k : Nat) : Byte :=
  if 8 * k < nbits then BitVec.ofNat 8 (w % 2 ^ nbits / 2 ^ (8 * k)) else 0#8

/-- The 15 bytes of such an instruction. -/
def wordBytes (nbits w : Nat) : List Byte := (List.range maxInstrLen).map (wordByte nbits w)

/-- The instruction the decoder reads from such a number. -/
def decodeTableWord (nbits w : Nat) : Option Instr :=
  match decode (wordBytes nbits w) with
  | .form i => some i
  | _ => none

/-! ### The machine-readable table -/

/-- A row of spec/opcode_table.json (R73): `len` is `none` in an embedded-rounding row. `bits` and `care` are the row's
`match` and `mask` over the six bytes 62H P0 P1 P2 opcode ModRM, the first byte the most significant. -/
structure TableRow where
  digits : Digits
  neg : Bool
  len : Option VecLen
  bits : BitVec 48
  care : BitVec 48
deriving DecidableEq, Repr

/-- The four rows of a mnemonic, embedded rounding first (R73); `op` is its opcode byte. -/
def rowsOf (digits : Digits) (neg : Bool) (op : Byte) : List TableRow :=
  [{ digits := digits, neg := neg, len := none, bits := 0x62060510#32 ++ op ++ 0xC0#8, care := 0xFF0F8710FFC0#48 },
   { digits := digits, neg := neg, len := some .v128, bits := 0x62060500#32 ++ op ++ 0#8, care := 0xFF0F8760FF00#48 },
   { digits := digits, neg := neg, len := some .v256, bits := 0x62060520#32 ++ op ++ 0#8, care := 0xFF0F8760FF00#48 },
   { digits := digits, neg := neg, len := some .v512, bits := 0x62060540#32 ++ op ++ 0#8, care := 0xFF0F8760FF00#48 }]

/-- spec/opcode_table.json, in file order (R73). -/
def tableRows : List TableRow :=
  rowsOf .d132 false 0x98#8 ++ rowsOf .d213 false 0xA8#8 ++ rowsOf .d231 false 0xB8#8 ++
    rowsOf .d132 true 0x9C#8 ++ rowsOf .d213 true 0xAC#8 ++ rowsOf .d231 true 0xBC#8

/-- The row's pattern and its `where` condition (R73) hold of the six bytes `h`: in a plain row, mod ≠ 11b or b = 0, and
not z = 1 with aaa = 000b. -/
def TableRow.covers (r : TableRow) (h : BitVec 48) : Bool :=
  h &&& r.care == r.bits &&
    (r.len.isNone ||
      (!(h.extractLsb' 6 2 == 3#2 && h.getLsbD 20) && !(h.getLsbD 23 && h.extractLsb' 16 3 == 0#3)))

/-- The row of the six bytes, rows tried in file order (R73). -/
def tableRowOf (h : BitVec 48) : Option TableRow := tableRows.find? fun r => r.covers h

end Sys2Proof
end

