-- ==== Sys2Proof/Machine/Fetch.lean ====
section
/-!
DEFINITION. Fetching an instruction's bytes, what declines a launch before an instruction, and placing an instruction where
the next fetch finds it (10_state.md R19, 20_memory.md R23, 30_encoding.md R66, 70_reset_and_hazards.md R167).
-/

namespace Sys2Proof.Machine

open Sys2Proof

/-- The linear address of the next instruction (R19, R26): RIP in 64-bit mode, where the base of CS is 0; CS.base + RIP
elsewhere. -/
def State.fetchAddress (s : State) : Addr := if s.in64BitMode then s.rip else s.csBase + s.rip

/-- The linear address lies in the program text (R167). -/
def State.inText (s : State) (la : Addr) : Bool := decide ((la - s.text.start).toNat < s.text.size)

/-- The linear address is the one after the last byte of the program text (R167). -/
def State.atEndOfText (s : State) (la : Addr) : Bool := la == s.text.start + BitVec.ofNat 64 s.text.size

/-- Why a fetch gives no further byte. `enough` says that the decoder needs none. -/
inductive FetchStop where
  | enough
  | beyondText
  | nonCanonical
  | pageFault (la : Addr) (code : BitVec 32)
  | device
  | absent
deriving DecidableEq, Repr

/-- One instruction byte, or why there is none (R23, R167; R19 for a non-canonical address). -/
def State.fetchByte (s : State) (la : Addr) : Except FetchStop Byte :=
  if !s.inText la then .error .beyondText
  else if !s.canonical la then .error .nonCanonical
  else match s.readByte .fetch la with
    | .pageFault code => .error (.pageFault la code)
    | .device => .error .device
    | .absent => .error .absent
    | .byte v => .ok v

/-- At most `n` instruction bytes from a linear address on, and what stopped the fetch. -/
def State.fetchBytes (s : State) : Nat → Addr → List Byte × FetchStop
  | 0, _ => ([], .enough)
  | n + 1, la =>
    match s.fetchByte la with
    | .error stop => ([], stop)
    | .ok v =>
      let r := State.fetchBytes s n (la + 1)
      (v :: r.1, r.2)

/-- A byte that the prefix loop of R66 consumes. -/
def isPrefixByte (b : Byte) : Bool := (prefixOf b).isSome || badPrefix b

/-- All that R66 can ask for: the prefix bytes, however many, then ten bytes after the first other one (P0 P1 P2 opcode
ModRM SIB disp32). `n` bounds the prefixes. -/
def State.fetchFrom (s : State) : Nat → Addr → List Byte × FetchStop
  | 0, _ => ([], .enough)
  | n + 1, la =>
    match s.fetchByte la with
    | .error stop => ([], stop)
    | .ok v =>
      let r := if isPrefixByte v then State.fetchFrom s n (la + 1) else s.fetchBytes 10 (la + 1)
      (v :: r.1, r.2)

/-- The bytes of the next instruction, as far as they can be fetched, and what stopped the fetch. The program text bounds
them (R167). -/
def State.fetched (s : State) : List Byte × FetchStop := s.fetchFrom (s.text.size + 1) s.fetchAddress

/-- An instruction whose bytes cannot all be fetched. Beyond the text is R167 and a non-canonical byte R19. The spec gives
the fetch no page fault, device or absent byte (R39, R41 and R43 speak of the memory operand): treating them as those of an
operand is the model's choice (log 21; log 17; log 4). -/
def fetchFailure (stop : FetchStop) (s : State) : Result :=
  match stop with
  | .enough => .refused .beyondProgramText
  | .beyondText => .refused .beyondProgramText
  | .nonCanonical => .refused .ripNotCanonical
  | .pageFault la code => raiseException (.pf code la) s
  | .device => .refused .deviceMemory
  | .absent => .fault .absentMemory

/-- After `n` bytes the next RIP is canonical and RIP does not wrap (R19, D25). -/
def State.nextRipFits (s : State) (n : Nat) : Bool :=
  decide (s.fetchAddress.toNat + n < 2 ^ 64) && s.canonical (s.fetchAddress + BitVec.ofNat 64 n)

/-- Bytes that raise an exception when they are decoded. R19 declines them too where they end beyond the canonical half or
wrap; R66 gives bytes that are #UD no length, so theirs is the one of R63, as far as the bytes go (DEDUCED, log 19). -/
def raiseAtDecode (e : Exception) (bs : List Byte) (s : State) : Result :=
  if s.nextRipFits (shapeLength bs) then raiseException e s else .refused .ripNotCanonical

/-- Bytes that end before R66 has its answer. However many came before, the step is declined where the byte it needs next is
not canonical (R19) or lies beyond the program text (R167), and where the bytes are of this family and could only end beyond
the canonical half or wrap (R19). Otherwise, where 15 have been fetched the instruction is longer than that (R139: "found
while fetching"): of this family it raises #GP(0) (R63, R134), before a page fault, device or absent byte; of no known family
it is declined (the model's choices, log 13). -/
def execTruncated (family : Bool) (bs : List Byte × FetchStop) (s : State) : Result :=
  if family && !s.nextRipFits (shapeLength bs.1) then .refused .ripNotCanonical
  else if bs.1.length < maxInstrLen || bs.2 == .nonCanonical || bs.2 == .beyondText then fetchFailure bs.2 s
  else if family then raiseException .gp s
  else .refused .notThisFamily

/-- A launch that the spec declines whatever the instruction (D1, R149, I23). -/
def State.launchRefusal (s : State) : Option Refusal :=
  if !s.realOrVm86 && !s.in64BitMode then some .not64BitMode
  else if s.trapFlag then some .singleStepArmed
  else if s.mxcsrReservedBits != 0#16 then some .mxcsrReserved
  else none

/-- Store bytes where a fetch at the linear address finds them. -/
def State.placeBytes (s : State) : List Byte → Addr → State
  | [], _ => s
  | b :: bs, la =>
    match s.translate .fetch la with
    | .phys pa => State.placeBytes (s.setMem (s.mem.write pa.toNat b)) bs (la + 1)
    | .pageFault _ => State.placeBytes s bs (la + 1)

/-- The instruction of `nbits` bits with the number `w` placed as the program text at the next fetch address. -/
def State.placeWord (s : State) (nbits w : Nat) : State :=
  (s.placeBytes (wordBytes nbits w) s.fetchAddress).setText { start := s.fetchAddress, size := maxInstrLen }

end Sys2Proof.Machine
end

