-- ==== Sys2Proof/Machine/Step.lean ====
section
/-!
DEFINITION. One step of the machine: end of run, fetch, decode, execute.
-/

namespace Sys2Proof.Machine

open Sys2Proof

/-- What a decoded byte string does (R64 to R66, R130, R134); R19 declines it where its next RIP is not canonical. -/
def execDecoded (d : DecodeResult) (bs : List Byte × FetchStop) (s : State) : Host.Outcome State Fault Refusal :=
  match d with
  | .form i => if s.nextRipFits i.ilen then exec i s else .refused .ripNotCanonical
  | .ud => raiseAtDecode .ud bs.1 s
  | .gp0 => raiseAtDecode .gp bs.1 s
  | .notThisFamily => .refused .notThisFamily
  | .truncated family => execTruncated family bs s

/-- Fetch and execute one instruction. -/
def fetchAndExec (s : State) : Host.Outcome State Fault Refusal := execDecoded (decode s.fetched.1) s.fetched s

/-- One step: a run ends at a raised exception (R141) and at the end of the program text (R167). -/
def step (s : State) : Host.Outcome State Fault Refusal :=
  match s.raised with
  | some e => .fault (.exceptionRaised e)
  | none =>
    match s.launchRefusal with
    | some r => .refused r
    | none => if s.atEndOfText s.fetchAddress then .fault .endOfProgram else fetchAndExec s

/-- `s` with the instruction of `nbits` bits and number `w` where the next step fetches (R167: a program is placed by the
launch). -/
def State.withFetchWord (s : State) (nbits w : Nat) : State := s.placeWord nbits w

end Sys2Proof.Machine
end

