-- ==== Sys2Proof/Safety.lean ====
section
/-!
DEFINITION. The terms statements use: the premise `SimdEnabled` (70_reset_and_hazards.md R162), when an operand can be read,
what it is to complete, to raise and to leave the rest of the machine alone, and the invariant every step keeps.
-/

namespace Sys2Proof.Machine

open Sys2Proof

/-- `SimdEnabled` for a form (R162), with the AVX512F flag of R22 (log 25) and the registers that the form names (log 24;
always so with the default parameters). -/
def SimdEnabled (f : Form) (s : State) : Prop :=
  s.protectedMode = true ∧ s.vmFlag = false ∧ s.in64BitMode = true ∧ s.taskSwitched = false ∧ s.osEnabled = true ∧
    s.config.hasAvx512f = true ∧ s.config.hasAvx512Fp16 = true ∧ (f.vl = .v512 ∨ s.config.hasAvx512Vl = true) ∧
    s.hasRegisters f = true

/-- Operand 3 can be read: a register always; memory when the operand's addresses are canonical (R38), every needed byte
(R35) translates without a page fault (R39), and memory holds it outside device ranges (R41, R43, log 17). -/
def OperandReadable (f : Form) (s : State) : Prop :=
  match f.src3 with
  | .reg _ => True
  | .mem bcst m =>
    s.operandCanonical f bcst (s.linearAddress f bcst m) = true ∧
      ∀ a ∈ s.neededBytes f bcst (s.linearAddress f bcst m), ∃ v, s.readByte .read a = .byte v

/-- The third-source element of lane j (R84). -/
def thirdElement (f : Form) (s : State) (j : Nat) : Fp16 :=
  match f.src3 with
  | .reg r => lane (s.zmmAt r) j
  | .mem bcst m => s.element (elementAddress bcst (s.linearAddress f bcst m) j)

/-- The writemask selects lane j (R14, R83): always without a writemask, else by bit j of the selected opmask register. -/
def MaskSelects (s : State) (m : Masking) (j : Nat) : Prop :=
  match m with
  | .none => True
  | .merge k => (s.k[k.toNat]'k.isLt).getLsbD j = true
  | .zero k => (s.k[k.toNat]'k.isLt).getLsbD j = true

/-- Lane j takes part: it is below KL and the writemask selects it (R83). -/
def Active (f : Form) (s : State) (j : Nat) : Prop := j < f.vl.lanes ∧ MaskSelects s f.mask j

/-- What an inactive lane of the destination holds after completion (R85): 0 under zeroing, else what it held. -/
def inactiveLane (f : Form) (s : State) (j : Nat) : Fp16 :=
  match f.mask with
  | .zero _ => 0#16
  | _ => lane (s.zmmAt f.dest) j

/-- No active lane detects a flag whose MXCSR mask is 0, or embedded rounding suppresses all (R88, R89). `res` gives the
lanes' results. -/
def NoneUnmasked (f : Form) (s : State) (res : Nat → Fp16 × FpFlags) : Prop :=
  f.er = none → ∀ j, Active f s j → (res j).2.bits &&& ~~~s.mxcsrMasks = 0#6

/-- All that a completing instruction may not write (R24): everything but the vector registers, MXCSR and RIP. Memory is
compared by reading each byte. -/
def RestUnchanged (s t : State) : Prop :=
  t.k = s.k ∧ t.gpr = s.gpr ∧ t.rflags = s.rflags ∧ t.fsBase = s.fsBase ∧ t.gsBase = s.gsBase ∧
    t.csSelector = s.csSelector ∧ t.csBase = s.csBase ∧ t.csL = s.csL ∧ t.cr0 = s.cr0 ∧ t.cr4 = s.cr4 ∧
    t.xcr0 = s.xcr0 ∧ t.efer = s.efer ∧ t.translation = s.translation ∧ t.devices = s.devices ∧ t.text = s.text ∧
    t.config = s.config ∧ ∀ kind la, t.readByte kind la = s.readByte kind la

/-- The outcome is that of a completing instruction of form `f` whose lanes have the results `res` (R83 to R88, R24): the
elements of the destination, 0 above VL, the other vector registers as before, the active lanes' flags ORed into MXCSR
(none under embedded rounding), RIP moved past the instruction, and the rest of the machine as before. -/
def CompletesWith (o : Host.Outcome State Fault Refusal) (f : Form) (s : State) (res : Nat → Fp16 × FpFlags) : Prop :=
  ∃ t, o = .next t ∧
    (∀ j, Active f s j → lane (t.zmmAt f.dest) j = (res j).1) ∧
    (∀ j, j < f.vl.lanes → ¬ Active f s j → lane (t.zmmAt f.dest) j = inactiveLane f s j) ∧
    (∀ b, f.vl.bits ≤ b → regBit (t.zmmReg f.dest) b = false) ∧
    (∀ r, r ≠ f.dest → t.zmmReg r = s.zmmReg r) ∧
    (∀ b, b < 32 → (t.mxcsr.getLsbD b = true ↔
      s.mxcsr.getLsbD b = true ∨ (f.er = none ∧ ∃ j, Active f s j ∧ (res j).2.bits.getLsbD b = true))) ∧
    t.rip = s.rip + BitVec.ofNat 64 f.ilen ∧ t.raised = s.raised ∧ t.cr2 = s.cr2 ∧ RestUnchanged s t

/-- The outcome is the raising of `e` at state `s` with nothing else changed (R140). -/
def RaisesOnly (o : Host.Outcome State Fault Refusal) (e : Exception) (s : State) : Prop :=
  o = .next { s with raised := some e }

/-- A next state turned into another, a stop kept. -/
def mapNext (g : State → State) : Host.Outcome State Fault Refusal → Host.Outcome State Fault Refusal
  | .next t => .next (g t)
  | .fault r => .fault r
  | .refused r => .refused r

/-- `s` with every MXCSR mask bit set (R16: bits 12:7). -/
def State.maskAll (s : State) : State := s.setMxcsr (s.mxcsr ||| 0x1F80#32)

/-- What every step keeps: memory in its canonical form, every vector register within MAXVL bits (R10), the reserved MXCSR
bits 0 (R16), no #AC raised (R136), and CR2 holding the address of a page fault that was raised (R135). -/
def Inv (s : State) : Prop :=
  s.mem.wf ∧ (∀ r b, s.config.maxVl ≤ b → regBit (s.zmmReg r) b = false) ∧ s.mxcsrReservedBits = 0#16 ∧ s.raised ≠ some .ac ∧
    ∀ code la, s.raised = some (.pf code la) → s.cr2 = la

end Sys2Proof.Machine
end

