-- ==== Sys2Proof/Certificates/Slice0/Obligations.lean ====
section
/-!
DEFINITION. The statements for the provers. Each docstring names the rules of spec/ it follows; a clause that is the model's
own choice names the log entry. Where a statement says that an exception is raised, it says so through `raised`, the model's
record of it (log 1): RIP stays, and the next step ends the run.
-/

open Sys2Proof
open Sys2Proof.Machine

namespace Sys2Proof.Machine

/-- Instruction `i`, of form `f`, completes with the lane results `lanes` whenever the machine is enabled, its operand can
be read and no active lane detects an unmasked exception. -/
def CompletesAs (i : Instr) (f : Form) (lanes : State → Nat → Fp16 × FpFlags) : Prop :=
  ∀ s, SimdEnabled f s → OperandReadable f s → NoneUnmasked f s (lanes s) → CompletesWith (exec i s) f s (lanes s)

/-- The lane results when operands 1 and 3 are multiplied and operand 2 is added (R80, digits 132). -/
def lanes132 (neg : Bool) (f : Form) (s : State) (j : Nat) : Fp16 × FpFlags :=
  fma16 (s.laneControl f) neg (lane (s.zmmAt f.dest) j) (thirdElement f s j) (lane (s.zmmAt f.src2) j)

/-- The lane results when operands 2 and 1 are multiplied and operand 3 is added (R80, digits 213). -/
def lanes213 (neg : Bool) (f : Form) (s : State) (j : Nat) : Fp16 × FpFlags :=
  fma16 (s.laneControl f) neg (lane (s.zmmAt f.src2) j) (lane (s.zmmAt f.dest) j) (thirdElement f s j)

/-- The lane results when operands 2 and 3 are multiplied and operand 1 is added (R80, digits 231). -/
def lanes231 (neg : Bool) (f : Form) (s : State) (j : Nat) : Fp16 × FpFlags :=
  fma16 (s.laneControl f) neg (lane (s.zmmAt f.src2) j) (thirdElement f s j) (lane (s.zmmAt f.dest) j)

/-- The lane results of any instruction, by its digits. -/
def lanesOf (f : Form) (s : State) (j : Nat) : Fp16 × FpFlags :=
  laneFma (s.laneControl f) f.digits f.neg (lane (s.zmmAt f.dest) j) (lane (s.zmmAt f.src2) j) (thirdElement f s j)

/-- The bytes are legacy prefixes, accepted or #UD (R62). -/
def AllPrefixes (bs : List Byte) : Prop := ∀ b ∈ bs, (prefixOf b).isSome = true ∨ badPrefix b = true

end Sys2Proof.Machine

/-! ### Encoding -/

/-- The decoder reads back every encodable instruction, whatever bytes follow it (R50 to R66). -/
def Obligations.DecodeReadsBackEncode : Prop :=
  ∀ (i : Instr) (rest : List Byte), i.wf = true → decode (encode i ++ rest) = .form i

/-- What the decoder accepts is exactly the encoding of the instruction it answers: no bit is dropped (R50 to R66). -/
def Obligations.AcceptedBytesAreTheEncoding : Prop :=
  ∀ (bs : List Byte) (i : Instr), decode bs = .form i → i.wf = true ∧ encode i = bs.take i.ilen

/-- The decoder and opcode_table.json agree (R73): six unprefixed bytes, with enough bytes after them, decode to an
instruction exactly when they belong to a row of the table and are not z = 1 with aaa = 000b; and the row, tried in file
order, is the instruction's. -/
def Obligations.TableAgreesWithDecoder : Prop :=
  ∀ (b0 p0 p1 p2 op modrm : Byte) (rest : List Byte), 5 ≤ rest.length → prefixOf b0 = none → badPrefix b0 = false →
    ((∃ i, decode (b0 :: p0 :: p1 :: p2 :: op :: modrm :: rest) = .form i) ↔
      ((tableRowOf (b0 ++ p0 ++ p1 ++ p2 ++ op ++ modrm)).isSome = true ∧
        ¬ (p2.getLsbD 7 = true ∧ p2.extractLsb' 0 3 = 0#3))) ∧
    ∀ i, decode (b0 :: p0 :: p1 :: p2 :: op :: modrm :: rest) = .form i →
      ∃ r, tableRowOf (b0 ++ p0 ++ p1 ++ p2 ++ op ++ modrm) = some r ∧ r.digits = i.form.digits ∧ r.neg = i.form.neg ∧
        r.len = if i.form.er.isSome then none else some i.form.vl

/-- The #UD encodings of the family: exactly U1, U2, U3, U4 of R64, and U5 where a #UD prefix stands before 62H, whatever
the length (R66 tests it last; log 13). A step that fetches one raises #UD and changes nothing else; where its next RIP by
the length of R63 does not fit, the step is refused (R19, D25; that R19 covers it is log 19). That length does not depend on
P0, P1, P2 and the opcode. Where the program text ends before ModRM the step is refused whatever the other bytes are
(R66, R167). -/
def Obligations.IllegalEncodingsAreUd : Prop :=
  (∀ (pre : List Byte) (p0 p1 p2 op modrm : Byte) (rest : List Byte), AllPrefixes pre →
    inFamily p0 p1 = true → (opcodeOf op).isSome = true →
    (decode (pre ++ 0x62#8 :: p0 :: p1 :: p2 :: op :: modrm :: rest) = .ud ↔
      (p0.getLsbD 3 = true ∨ p1.getLsbD 2 = false ∨
        (p2.extractLsb' 5 2 = 3#2 ∧ ¬ (modrm.extractLsb' 6 2 = 3#2 ∧ p2.getLsbD 4 = true)) ∨
        (p2.getLsbD 7 = true ∧ p2.extractLsb' 0 3 = 0#3) ∨ ∃ b ∈ pre, badPrefix b = true))) ∧
  (∀ (pre : List Byte) (p0 p1 p2 op modrm : Byte) (rest : List Byte), AllPrefixes pre → ∀ q0 q1 q2 oq : Byte,
    shapeLength (pre ++ 0x62#8 :: p0 :: p1 :: p2 :: op :: modrm :: rest) =
      pre.length + shapeLength (0x62#8 :: q0 :: q1 :: q2 :: oq :: modrm :: rest)) ∧
  (∀ s : State, s.raised = none → s.launchRefusal = none → s.atEndOfText s.fetchAddress = false →
    decode s.fetched.1 = .ud →
    (s.nextRipFits (shapeLength s.fetched.1) = true → RaisesOnly (step s) .ud s) ∧
    (s.nextRipFits (shapeLength s.fetched.1) = false → step s = .refused .ripNotCanonical)) ∧
  ∀ (s : State) (pre : List Byte) (p0 p1 p2 op : Byte), s.raised = none → s.launchRefusal = none →
    s.atEndOfText s.fetchAddress = false → AllPrefixes pre →
    s.fetched = (pre ++ [0x62#8, p0, p1, p2, op], .beyondText) → s.nextRipFits (pre.length + 6) = true →
    step s = .refused .beyondProgramText

/-- R65, R66: another map, another pp, W = 1 or another opcode byte is "not this family", whatever and however many prefixes
stand before, and a step that fetches such bytes, ModRM among them, refuses. -/
def Obligations.NeighbourEncodingsRefused : Prop :=
  ∀ (pre : List Byte) (p0 p1 p2 op modrm : Byte) (rest : List Byte), AllPrefixes pre →
    (p0.extractLsb' 0 3 ≠ 6#3 ∨ p1.extractLsb' 0 2 ≠ 1#2 ∨ p1.getLsbD 7 = true ∨
      op ∉ [0x98#8, 0xA8#8, 0xB8#8, 0x9C#8, 0xAC#8, 0xBC#8]) →
    decode (pre ++ 0x62#8 :: p0 :: p1 :: p2 :: op :: modrm :: rest) = .notThisFamily ∧
    ∀ s : State, s.raised = none → s.launchRefusal = none → s.atEndOfText s.fetchAddress = false →
      s.fetched.1 = pre ++ 0x62#8 :: p0 :: p1 :: p2 :: op :: modrm :: rest → step s = .refused .notThisFamily

/-- R63, R66, R134: the length of R63 is that of the encoding; a form of more than 15 bytes decodes to #GP(0), and a step
that fetches it raises #GP(0) and changes nothing else; so does one that fetches at least 15 of its bytes with the opcode
among them, where the next is in the program text and canonical (that no further byte matters then is the model's choice,
log 13). The step is refused instead where the next RIP by the length of R63 does not fit or the next byte is not canonical
(R19, D25), and where the program text ends (R167). -/
def Obligations.LongInstructionRaisesGp : Prop :=
  (∀ (i : Instr) (rest : List Byte), i.form.src3.wf = true → shapeLength (encode i ++ rest) = i.ilen) ∧
  (∀ (i : Instr) (rest : List Byte), i.form.mask.wf = true → i.form.src3.wf = true → maxInstrLen < i.ilen →
    decode (encode i ++ rest) = .gp0 ∧
    ∀ (s : State) (n : Nat), s.raised = none → s.launchRefusal = none → s.atEndOfText s.fetchAddress = false →
      maxInstrLen ≤ n → i.form.pfx.length + 5 ≤ n → s.fetched.1 = (encode i ++ rest).take n →
      (s.nextRipFits (shapeLength s.fetched.1) = true →
        (i.ilen ≤ n ∨ (s.fetched.2 ≠ .nonCanonical ∧ s.fetched.2 ≠ .beyondText) → RaisesOnly (step s) .gp s) ∧
        (n < i.ilen → s.fetched.2 = .beyondText → step s = .refused .beyondProgramText)) ∧
      ((s.nextRipFits (shapeLength s.fetched.1) = false ∨ (n < i.ilen ∧ s.fetched.2 = .nonCanonical)) →
        step s = .refused .ripNotCanonical)) ∧
  Exception.gp.vector = 13 ∧ Exception.gp.errorCode = some 0#32

/-- Words written out from the encodings of R70 decode to the instructions they stand for. -/
def Obligations.SpecWordsDecode : Prop :=
  decodeTableWord 48 0xCB98086DF662 = some (.vfmadd132ph128 ⟨[], 1, 2, .reg 3, .none⟩) ∧
  decodeTableWord 48 0xF49840150662 = some (.vfmadd132ph512 ⟨[], 30, 29, .reg 28, .none⟩) ∧
  decodeTableWord 48 0xC2A80875F662 = some (.vfmadd213ph128 ⟨[], 0, 1, .reg 2, .none⟩) ∧
  decodeTableWord 48 0xC2BC7A75F662 = some (.vfnmadd231phEr ⟨[], 0, 1, 2, .merge 2, .rz⟩) ∧
  decodeTableWord 56 0x016F9C484DF662 = some (.vfnmadd132ph512 ⟨[], 5, 6, .mem false (.baseDisp false 7 (.d8 1)), .none⟩)

/-! ### One lane -/

/-- R101 with the default `nan_select`: a lane with a NaN operand returns the first NaN of multiplicand, multiplier, addend
made quiet; IE exactly when an operand is signalling; no other flag; the sign and the other fraction bits stay. -/
def Obligations.NanLaneReturnsFirstNan : Prop :=
  ∀ (c : LaneControl) (neg : Bool) (x y w : Fp16), c.nanSelect = .multiplicandMultiplierAddend →
    (isNan x = true ∨ isNan y = true ∨ isNan w = true) →
    ∃ n, ((isNan x = true ∧ n = x) ∨ (isNan x = false ∧ isNan y = true ∧ n = y) ∨
        (isNan x = false ∧ isNan y = false ∧ n = w)) ∧
      fpClass (fma16 c neg x y w).1 = .qnan ∧
      (∀ b, b ≠ 9 → (fma16 c neg x y w).1.getLsbD b = n.getLsbD b) ∧
      ((fma16 c neg x y w).2.ie = true ↔ isSnan x = true ∨ isSnan y = true ∨ isSnan w = true) ∧
      (fma16 c neg x y w).2.de = false ∧ (fma16 c neg x y w).2.oe = false ∧ (fma16 c neg x y w).2.ue = false ∧
      (fma16 c neg x y w).2.pe = false

/-- R102: without a NaN operand, a zero times an infinity, or an infinite product with an infinite addend of the opposite
sign, gives FE00H with IE, and DE where an operand is denormal and `DE_ON_INVALID_LANE` is true. -/
def Obligations.InvalidLaneReturnsDefaultNan : Prop :=
  ∀ (c : LaneControl) (neg : Bool) (x y w : Fp16), c.daz = false → isNan x = false → isNan y = false → isNan w = false →
    ((isInf x = true ∧ isZero y = true) ∨ (isZero x = true ∧ isInf y = true) ∨
      ((isInf x = true ∨ isInf y = true) ∧ isInf w = true ∧ fpSign w = !((fpSign x).xor (fpSign y)).xor neg)) →
    fma16 c neg x y w =
      (0xFE00#16, { ie := true, de := (isDenormal x || isDenormal y || isDenormal w) && c.deOnInvalid })

/-- R103: an infinite result without exception. -/
def Obligations.InfiniteLaneResult : Prop :=
  ∀ (c : LaneControl) (neg : Bool) (x y w : Fp16), c.daz = false → isNan x = false → isNan y = false → isNan w = false →
    ((isInf x = true ∧ isZero y = false) ∨ (isInf y = true ∧ isZero x = false) →
      (isInf w = true → fpSign w = ((fpSign x).xor (fpSign y)).xor neg) →
      fma16 c neg x y w = (if ((fpSign x).xor (fpSign y)).xor neg then 0xFC00#16 else 0x7C00#16,
        { de := isDenormal x || isDenormal y || isDenormal w })) ∧
    (isInf x = false → isInf y = false → isInf w = true →
      fma16 c neg x y w = (w, { de := isDenormal x || isDenormal y || isDenormal w }))

/-- R104: an exact zero from finite operands is the common zero where a zero product and a zero addend have one sign, else
+0, or -0 under round-down; no OE, UE or PE. With exactly one of product and addend zero the general rules apply: a zero
product returns the addend unchanged (not so under flush-to-zero, R110), without OE and PE, and with UE only where UM = 0 and
the addend is denormal, by R107 and R113 (a parenthesis of R104 has no UE: log 33). -/
def Obligations.ExactZeroLaneResult : Prop :=
  ∀ (c : LaneControl) (neg : Bool) (x y w : Fp16), c.daz = false → isFinite x = true → isFinite y = true →
    isFinite w = true →
    (exactFma neg x y w = 0 →
      (fma16 c neg x y w).2 = { de := isDenormal x || isDenormal y || isDenormal w } ∧
      (fma16 c neg x y w).1 =
        if fpVal x * fpVal y = 0 ∧ fpVal w = 0 ∧ ((fpSign x).xor (fpSign y)).xor neg = fpSign w then
          (if fpSign w then 0x8000#16 else 0#16)
        else if c.rm = .rd then 0x8000#16 else 0#16) ∧
    (fpVal x * fpVal y = 0 → fpVal w ≠ 0 → (c.ftz = false ∨ isDenormal w = false) →
      (fma16 c neg x y w).1 = w ∧ (fma16 c neg x y w).2.pe = false ∧ (fma16 c neg x y w).2.oe = false ∧
        (fma16 c neg x y w).2.ue = (isDenormal w && !c.um))

/-- R114 (4): an exact result that is an FP16 value is returned as its pattern, without loss and without PE. -/
def Obligations.RepresentableResultIsExact : Prop :=
  ∀ (c : LaneControl) (neg : Bool) (x y w h : Fp16), c.daz = false → c.ftz = false → isFinite x = true →
    isFinite y = true → isFinite w = true → isFinite h = true → fpVal h ≠ 0 → exactFma neg x y w = fpVal h * 2 ^ 24 →
    fma16 c neg x y w =
      (h, { de := isDenormal x || isDenormal y || isDenormal w, ue := isDenormal h && !c.um })

/-- R108: PE exactly when the delivered result differs from the exact one; never in the lanes of R101 to R103. -/
def Obligations.PrecisionMeansInexact : Prop :=
  ∀ (c : LaneControl) (neg : Bool) (x y w : Fp16), c.daz = false →
    (isFinite x = true → isFinite y = true → isFinite w = true →
      ((fma16 c neg x y w).2.pe = true ↔
        ¬ (isFinite (fma16 c neg x y w).1 = true ∧ fpVal (fma16 c neg x y w).1 * 2 ^ 24 = exactFma neg x y w))) ∧
    (isFinite x = false ∨ isFinite y = false ∨ isFinite w = false → (fma16 c neg x y w).2.pe = false)

/-- The directed modes of R100 on finite operands: round-down delivers the greatest FP16 value not above the exact result,
round-up the least not below it, round-toward-zero the former for a result not below zero and the latter for one not above
it; and in every mode a result that is not exactly zero has the sign of the exact one, also when it rounds to zero (R105 to
R107). -/
def Obligations.DirectedRoundingIsTight : Prop :=
  ∀ (c : LaneControl) (neg : Bool) (x y w : Fp16), c.daz = false → isFinite x = true → isFinite y = true →
    isFinite w = true →
    (exactFma neg x y w ≠ 0 → fpSign (fma16 c neg x y w).1 = decide (exactFma neg x y w < 0)) ∧
    (c.ftz = false → isFinite (fma16 c neg x y w).1 = true →
      (c.rm = .rd ∨ (c.rm = .rz ∧ 0 ≤ exactFma neg x y w) →
        fpVal (fma16 c neg x y w).1 * 2 ^ 24 ≤ exactFma neg x y w ∧
        ∀ h, isFinite h = true → fpVal h * 2 ^ 24 ≤ exactFma neg x y w → fpVal h ≤ fpVal (fma16 c neg x y w).1) ∧
      (c.rm = .ru ∨ (c.rm = .rz ∧ exactFma neg x y w ≤ 0) →
        exactFma neg x y w ≤ fpVal (fma16 c neg x y w).1 * 2 ^ 24 ∧
        ∀ h, isFinite h = true → exactFma neg x y w ≤ fpVal h * 2 ^ 24 → fpVal (fma16 c neg x y w).1 ≤ fpVal h))

/-- Round to nearest (R100) on finite operands: no FP16 value is nearer to the exact result than the delivered one, and of
two equally near ones an even one is delivered. -/
def Obligations.NearestRoundingIsNearest : Prop :=
  ∀ (c : LaneControl) (neg : Bool) (x y w h : Fp16), c.daz = false → c.ftz = false → c.rm = .rn → isFinite x = true →
    isFinite y = true → isFinite w = true → isFinite (fma16 c neg x y w).1 = true → isFinite h = true →
    (exactFma neg x y w - fpVal (fma16 c neg x y w).1 * 2 ^ 24).natAbs ≤
        (exactFma neg x y w - fpVal h * 2 ^ 24).natAbs ∧
    ((exactFma neg x y w - fpVal (fma16 c neg x y w).1 * 2 ^ 24).natAbs =
        (exactFma neg x y w - fpVal h * 2 ^ 24).natAbs →
      fpVal h ≠ fpVal (fma16 c neg x y w).1 → (fma16 c neg x y w).1.getLsbD 0 = false)

/-- R105, R106: when a finite lane overflows, by rounding mode, and what it then delivers. 65504 is the largest finite
value, 65520 the tie above it, 65536 the first value beyond the exponent range; `exactFma` counts in 2^-48. -/
def Obligations.OverflowByRoundingMode : Prop :=
  ∀ (c : LaneControl) (neg : Bool) (x y w : Fp16), c.daz = false → isFinite x = true → isFinite y = true →
    isFinite w = true →
    ((fma16 c neg x y w).2.oe = true ↔
      match c.rm with
      | .rn => 65520 * 2 ^ 48 ≤ (exactFma neg x y w).natAbs
      | .rd => 65536 * 2 ^ 48 ≤ exactFma neg x y w ∨ exactFma neg x y w < -(65504 * 2 ^ 48)
      | .ru => 65504 * 2 ^ 48 < exactFma neg x y w ∨ exactFma neg x y w ≤ -(65536 * 2 ^ 48)
      | .rz => 65536 * 2 ^ 48 ≤ (exactFma neg x y w).natAbs) ∧
    ((fma16 c neg x y w).2.oe = true → (fma16 c neg x y w).2.pe = true ∧
      (fma16 c neg x y w).1 =
        match c.rm, decide (exactFma neg x y w < 0) with
        | .rn, false => 0x7C00#16
        | .rn, true => 0xFC00#16
        | .rd, false => 0x7BFF#16
        | .rd, true => 0xFC00#16
        | .ru, false => 0x7C00#16
        | .ru, true => 0xFBFF#16
        | .rz, false => 0x7BFF#16
        | .rz, true => 0xFBFF#16)

/-- R105, R107, flush-to-zero not honoured: a non-zero exact result of a finite lane is tiny when, rounded to 11 bits in the
rounding mode, it stays below 2^-14: below 2^-14 - 2^-26 (a tie goes up) to nearest, below 2^-14 where the mode rounds
toward zero, up to 2^-14 - 2^-25 where it rounds away from zero. With UM = 1, UE is detected exactly when the result is tiny
and no multiple of 2^-24; with UM = 0, exactly when it is tiny; and a tiny result detects PE exactly when it is no multiple
of 2^-24. `exactFma` counts in 2^-48. -/
def Obligations.UnderflowIsTinyAndInexact : Prop :=
  ∀ (c : LaneControl) (neg : Bool) (x y w : Fp16), c.daz = false → c.ftz = false → isFinite x = true →
    isFinite y = true → isFinite w = true →
    let r := exactFma neg x y w
    let tiny : Prop := r ≠ 0 ∧
      match c.rm, decide (r < 0) with
      | .rn, _ => r.natAbs < 2 ^ 34 - 2 ^ 22
      | .rz, _ => r.natAbs < 2 ^ 34
      | .rd, false => r.natAbs < 2 ^ 34
      | .rd, true => r.natAbs ≤ 2 ^ 34 - 2 ^ 23
      | .ru, false => r.natAbs ≤ 2 ^ 34 - 2 ^ 23
      | .ru, true => r.natAbs < 2 ^ 34
    (c.um = true → ((fma16 c neg x y w).2.ue = true ↔ tiny ∧ r.natAbs % 2 ^ 24 ≠ 0)) ∧
    (c.um = false → ((fma16 c neg x y w).2.ue = true ↔ tiny)) ∧
    (tiny → ((fma16 c neg x y w).2.pe = true ↔ r.natAbs % 2 ^ 24 ≠ 0))

/-- R111: IE excludes OE, UE and PE; OE and UE exclude each other; OE brings PE; a flag set never holds ZE. R114 (7): the
result is a NaN exactly when an operand is a NaN or IE is detected. -/
def Obligations.LaneFlagCombinations : Prop :=
  ∀ (c : LaneControl) (neg : Bool) (x y w : Fp16),
    ((fma16 c neg x y w).2.ie = true →
      (fma16 c neg x y w).2.oe = false ∧ (fma16 c neg x y w).2.ue = false ∧ (fma16 c neg x y w).2.pe = false) ∧
    ((fma16 c neg x y w).2.oe = true → (fma16 c neg x y w).2.ue = false ∧ (fma16 c neg x y w).2.pe = true) ∧
    (fma16 c neg x y w).2.bits.getLsbD 2 = false ∧
    (isNan (fma16 c neg x y w).1 = true ↔
      (isNan x = true ∨ isNan y = true ∨ isNan w = true ∨ (fma16 c neg x y w).2.ie = true))

/-- R112, R114 (2), (3): negating the product is flipping the sign of a factor that is no NaN; and the factors commute
unless both are NaN (with the default `nan_select`). -/
def Obligations.NegationAndFactorSymmetry : Prop :=
  ∀ (c : LaneControl) (x y w : Fp16),
    (isNan x = false → fma16 c true x y w = fma16 c false (x ^^^ 0x8000#16) y w) ∧
    (isNan y = false → fma16 c true x y w = fma16 c false x (y ^^^ 0x8000#16) w) ∧
    (c.nanSelect = .multiplicandMultiplierAddend → ¬ (isNan x = true ∧ isNan y = true) →
      ∀ neg, fma16 c neg x y w = fma16 c neg y x w)

/-- R114 (5): multiplying by one and adding -0 returns the operand, denormals not zeroed or flushed; +0 under round-down
becomes -0. -/
def Obligations.MultiplyByOneIsIdentity : Prop :=
  ∀ (c : LaneControl) (x : Fp16), c.daz = false → c.ftz = false → isNan x = false →
    fma16 c false x 0x3C00#16 0x8000#16 =
      (if x = 0#16 ∧ c.rm = .rd then 0x8000#16 else x, { de := isDenormal x, ue := isDenormal x && !c.um })

/-- R110: MXCSR.DAZ and MXCSR.FTZ reach the lanes only where `FP16_HONOURS_DAZ_FTZ` is true (a parameter, log 9). Then DAZ
replaces every denormal operand by the zero of its sign; and FTZ with UM = 1 delivers for a tiny result (one that detects UE
with UM = 0) the zero of its sign with UE and PE, and does nothing else. -/
def Obligations.DazAndFtzByParameter : Prop :=
  (∀ (s : State) (f : Form),
    (s.laneControl f).daz = (s.config.fp16HonoursDazFtz && s.mxcsr.getLsbD 6) ∧
    (s.laneControl f).ftz = (s.config.fp16HonoursDazFtz && s.mxcsr.getLsbD 15)) ∧
  (∀ (c : LaneControl) (neg : Bool) (x y w : Fp16), c.daz = true →
    fma16 c neg x y w = fma16 { c with daz := false } neg (if isDenormal x then x &&& 0x8000#16 else x)
      (if isDenormal y then y &&& 0x8000#16 else y) (if isDenormal w then w &&& 0x8000#16 else w)) ∧
  (∀ (c : LaneControl) (neg : Bool) (x y w : Fp16), c.daz = false → c.ftz = true →
    (c.um = false ∨ (fma16 { c with ftz := false, masks := 0#6 } neg x y w).2.ue = false →
      fma16 c neg x y w = fma16 { c with ftz := false } neg x y w) ∧
    (c.um = true → (fma16 { c with ftz := false, masks := 0#6 } neg x y w).2.ue = true →
      fma16 c neg x y w = (if exactFma neg x y w < 0 then 0x8000#16 else 0#16,
        { de := isDenormal x || isDenormal y || isDenormal w, ue := true, pe := true })))

/-- R99: the product is not rounded on its own: finite lanes with the same non-zero exact sum deliver the same result,
whatever their operands. -/
def Obligations.ResultDependsOnExactSumOnly : Prop :=
  ∀ (c : LaneControl) (neg neg' : Bool) (x y w x' y' w' : Fp16), c.daz = false → isFinite x = true →
    isFinite y = true → isFinite w = true → isFinite x' = true → isFinite y' = true → isFinite w' = true →
    exactFma neg x y w = exactFma neg' x' y' w' → exactFma neg x y w ≠ 0 →
    (fma16 c neg x y w).1 = (fma16 c neg' x' y' w').1 ∧ (fma16 c neg x y w).2.pe = (fma16 c neg' x' y' w').2.pe ∧
      (fma16 c neg x y w).2.oe = (fma16 c neg' x' y' w').2.oe ∧ (fma16 c neg x y w).2.ue = (fma16 c neg' x' y' w').2.ue

/-! ### The six instructions -/

/-- R120: VFMADD132PH, op1 := op1 * op3 + op2 in every active lane, with its frame. -/
def Obligations.Vfmadd132Completes : Prop :=
  (∀ o, CompletesAs (.vfmadd132phEr o) (erForm .d132 false o) (lanes132 false (erForm .d132 false o))) ∧
  (∀ o, CompletesAs (.vfmadd132ph128 o) (plainForm .d132 false .v128 o) (lanes132 false (plainForm .d132 false .v128 o))) ∧
  (∀ o, CompletesAs (.vfmadd132ph256 o) (plainForm .d132 false .v256 o) (lanes132 false (plainForm .d132 false .v256 o))) ∧
  (∀ o, CompletesAs (.vfmadd132ph512 o) (plainForm .d132 false .v512 o) (lanes132 false (plainForm .d132 false .v512 o)))

/-- R121: VFMADD213PH, op1 := op2 * op1 + op3 in every active lane, with its frame. -/
def Obligations.Vfmadd213Completes : Prop :=
  (∀ o, CompletesAs (.vfmadd213phEr o) (erForm .d213 false o) (lanes213 false (erForm .d213 false o))) ∧
  (∀ o, CompletesAs (.vfmadd213ph128 o) (plainForm .d213 false .v128 o) (lanes213 false (plainForm .d213 false .v128 o))) ∧
  (∀ o, CompletesAs (.vfmadd213ph256 o) (plainForm .d213 false .v256 o) (lanes213 false (plainForm .d213 false .v256 o))) ∧
  (∀ o, CompletesAs (.vfmadd213ph512 o) (plainForm .d213 false .v512 o) (lanes213 false (plainForm .d213 false .v512 o)))

/-- R122: VFMADD231PH, op1 := op2 * op3 + op1 in every active lane, with its frame. -/
def Obligations.Vfmadd231Completes : Prop :=
  (∀ o, CompletesAs (.vfmadd231phEr o) (erForm .d231 false o) (lanes231 false (erForm .d231 false o))) ∧
  (∀ o, CompletesAs (.vfmadd231ph128 o) (plainForm .d231 false .v128 o) (lanes231 false (plainForm .d231 false .v128 o))) ∧
  (∀ o, CompletesAs (.vfmadd231ph256 o) (plainForm .d231 false .v256 o) (lanes231 false (plainForm .d231 false .v256 o))) ∧
  (∀ o, CompletesAs (.vfmadd231ph512 o) (plainForm .d231 false .v512 o) (lanes231 false (plainForm .d231 false .v512 o)))

/-- R123: VFNMADD132PH, op1 := -(op1 * op3) + op2 in every active lane, with its frame. -/
def Obligations.Vfnmadd132Completes : Prop :=
  (∀ o, CompletesAs (.vfnmadd132phEr o) (erForm .d132 true o) (lanes132 true (erForm .d132 true o))) ∧
  (∀ o, CompletesAs (.vfnmadd132ph128 o) (plainForm .d132 true .v128 o) (lanes132 true (plainForm .d132 true .v128 o))) ∧
  (∀ o, CompletesAs (.vfnmadd132ph256 o) (plainForm .d132 true .v256 o) (lanes132 true (plainForm .d132 true .v256 o))) ∧
  (∀ o, CompletesAs (.vfnmadd132ph512 o) (plainForm .d132 true .v512 o) (lanes132 true (plainForm .d132 true .v512 o)))

/-- R124: VFNMADD213PH, op1 := -(op2 * op1) + op3 in every active lane, with its frame. -/
def Obligations.Vfnmadd213Completes : Prop :=
  (∀ o, CompletesAs (.vfnmadd213phEr o) (erForm .d213 true o) (lanes213 true (erForm .d213 true o))) ∧
  (∀ o, CompletesAs (.vfnmadd213ph128 o) (plainForm .d213 true .v128 o) (lanes213 true (plainForm .d213 true .v128 o))) ∧
  (∀ o, CompletesAs (.vfnmadd213ph256 o) (plainForm .d213 true .v256 o) (lanes213 true (plainForm .d213 true .v256 o))) ∧
  (∀ o, CompletesAs (.vfnmadd213ph512 o) (plainForm .d213 true .v512 o) (lanes213 true (plainForm .d213 true .v512 o)))

/-- R125: VFNMADD231PH, op1 := -(op2 * op3) + op1 in every active lane, with its frame. -/
def Obligations.Vfnmadd231Completes : Prop :=
  (∀ o, CompletesAs (.vfnmadd231phEr o) (erForm .d231 true o) (lanes231 true (erForm .d231 true o))) ∧
  (∀ o, CompletesAs (.vfnmadd231ph128 o) (plainForm .d231 true .v128 o) (lanes231 true (plainForm .d231 true .v128 o))) ∧
  (∀ o, CompletesAs (.vfnmadd231ph256 o) (plainForm .d231 true .v256 o) (lanes231 true (plainForm .d231 true .v256 o))) ∧
  (∀ o, CompletesAs (.vfnmadd231ph512 o) (plainForm .d231 true .v512 o) (lanes231 true (plainForm .d231 true .v512 o)))

/-! ### What an instruction writes -/

/-- R86: the bits above VL become 0 whenever the instruction completes, and only then. -/
def Obligations.UpperBitsZeroedOnCompletion : Prop :=
  ∀ (i : Instr) (s t : State), s.raised = none → exec i s = .next t →
    (t.raised = none → ∀ b, i.form.vl.bits ≤ b → regBit (t.zmmReg i.form.dest) b = false) ∧
    (t.raised ≠ none → t.zmm = s.zmm)

/-- R17: of MXCSR only bits 0, 1, 3, 4, 5 are written, only from 0 to 1, and none under embedded rounding. -/
def Obligations.MxcsrFlagsAreSticky : Prop :=
  ∀ (i : Instr) (s t : State), exec i s = .next t →
    (∀ b, s.mxcsr.getLsbD b = true → t.mxcsr.getLsbD b = true) ∧
    (∀ b, b ∉ [0, 1, 3, 4, 5] → t.mxcsr.getLsbD b = s.mxcsr.getLsbD b) ∧
    (i.form.er ≠ none → t.mxcsr = s.mxcsr)

/-- R93: no vector register but the destination, no opmask register and no general register is written. -/
def Obligations.SourceRegistersUnchanged : Prop :=
  ∀ (i : Instr) (s t : State), exec i s = .next t →
    (∀ r, r ≠ i.form.dest → t.zmmReg r = s.zmmReg r) ∧ t.k = s.k ∧ t.gpr = s.gpr

/-- R91: RIP moves past the instruction when it completes and stays when it raises. -/
def Obligations.RipAdvancesOrStays : Prop :=
  ∀ (i : Instr) (s t : State), s.raised = none → exec i s = .next t →
    t.rip = if t.raised = none then s.rip + BitVec.ofNat 64 i.ilen else s.rip

/-- R140: a raised exception leaves every register, RIP and memory as they were; MXCSR changes only for the exceptions of
R137, CR2 only for #PF, where it receives the reported address. -/
def Obligations.RaisedExceptionIsPrecise : Prop :=
  ∀ (i : Instr) (s t : State) (e : Exception), s.raised = none → exec i s = .next t → t.raised = some e →
    t.zmm = s.zmm ∧ t.rip = s.rip ∧ RestUnchanged s t ∧
    (t.mxcsr ≠ s.mxcsr → e = if s.osxmmexcpt then .xm else .ud) ∧
    (∀ code la, e = .pf code la → t.cr2 = la) ∧ ((∀ code la, e ≠ .pf code la) → t.cr2 = s.cr2)

/-- R30, R140, R144, R151: no step writes memory, an opmask or general register, RFLAGS, a segment register, CR0, CR4, XCR0,
EFER or the launch's parameters; CR2 changes only in a step that raises #PF, to the address it reports. -/
def Obligations.StepLeavesSystemStateAlone : Prop :=
  ∀ (s t : State), step s = .next t → RestUnchanged s t ∧ t.mem = s.mem ∧
    (t.cr2 ≠ s.cr2 → ∃ code la, t.raised = some (.pf code la) ∧ t.cr2 = la)

/-! ### Masking -/

/-- R35, R85: with a writemask whose low KL bits are 0 a memory form reads nothing: it completes whatever the translation
and memory hold, with its lanes kept or zeroed and MXCSR unchanged (also where the operand lies in device memory: the
model's choice, log 17). -/
def Obligations.FullyMaskedMemoryFormCompletes : Prop :=
  ∀ (i : Instr) (s : State) (bcst : Bool) (m : MemOperand), i.form.src3 = .mem bcst m → SimdEnabled i.form s →
    s.operandCanonical i.form bcst (s.linearAddress i.form bcst m) = true → (∀ j, ¬ Active i.form s j) →
    ∃ t, exec i s = .next t ∧ t.mxcsr = s.mxcsr ∧ t.raised = s.raised ∧ t.rip = s.rip + BitVec.ofNat 64 i.ilen ∧
      ∀ j, j < i.form.vl.lanes → lane (t.zmmAt i.form.dest) j = inactiveLane i.form s j

/-- R13, R14, R83: of the opmask registers only bits KL-1:0 of the register that the form selects are read, and none without
a writemask: a state whose opmask registers differ elsewhere behaves the same. -/
def Obligations.MaskBitsAboveLanesIgnored : Prop :=
  ∀ (i : Instr) (s : State) (kv : Vector (BitVec 64) 8),
    (∀ (k : KReg) (j : Nat), (i.form.mask = .merge k ∨ i.form.mask = .zero k) → j < i.form.vl.lanes →
      (kv[k.toNat]'k.isLt).getLsbD j = (s.k[k.toNat]'k.isLt).getLsbD j) →
    exec i { s with k := kv } = mapNext (fun t => { t with k := kv }) (exec i s)

/-- R85: a source register other than the destination may hold anything in inactive lanes: the outcome is the same. -/
def Obligations.InactiveSourceLanesIgnored : Prop :=
  ∀ (i : Instr) (s : State) (r : VReg) (v : VecReg), r ≠ i.form.dest →
    (∀ j, Active i.form s j → lane v.low j = lane (s.zmmAt r) j) →
    exec i (s.setZmm r v) = mapNext (fun t => t.setZmm r v) (exec i s)

/-! ### SIMD floating-point exceptions -/

/-- R88, R137, with no more than D29 allows of the flags: an unmasked flag in one active lane prevents the write of every
lane; #XM or #UD is raised by CR4.OSXMMEXCPT, at least one flag whose mask is 0 is now 1, and flags only go from 0 to 1. -/
def Obligations.UnmaskedLaneRaises : Prop :=
  ∀ (i : Instr) (s : State) (j : Nat), s.raised = none → SimdEnabled i.form s → OperandReadable i.form s →
    i.form.er = none → Active i.form s j → (lanesOf i.form s j).2.bits &&& ~~~s.mxcsrMasks ≠ 0#6 →
    ∃ t, exec i s = .next t ∧ t.raised = some (if s.osxmmexcpt then .xm else .ud) ∧ t.zmm = s.zmm ∧ t.rip = s.rip ∧
      t.mxcsr.extractLsb' 0 6 &&& ~~~t.mxcsrMasks ≠ 0#6 ∧
      (∀ b, s.mxcsr.getLsbD b = true → t.mxcsr.getLsbD b = true) ∧ RestUnchanged s t

/-- R88: the flags in MXCSR after the instruction, by phase: all active lanes' IE and DE after a pre-computation raise, all
their flags after a post-computation raise. (After a raise the exact set is the least certain part of R88, D29, log 11.) -/
def Obligations.FlagsReportedByPhase : Prop :=
  ∀ (i : Instr) (s t : State), SimdEnabled i.form s → OperandReadable i.form s → i.form.er = none →
    exec i s = .next t →
    ((∃ j, Active i.form s j ∧ (lanesOf i.form s j).2.pre.bits &&& ~~~s.mxcsrMasks ≠ 0#6) →
      ∀ b, b < 32 → (t.mxcsr.getLsbD b = true ↔
        s.mxcsr.getLsbD b = true ∨ ∃ j, Active i.form s j ∧ (lanesOf i.form s j).2.pre.bits.getLsbD b = true)) ∧
    ((∀ j, Active i.form s j → (lanesOf i.form s j).2.pre.bits &&& ~~~s.mxcsrMasks = 0#6) →
      ∀ b, b < 32 → (t.mxcsr.getLsbD b = true ↔
        s.mxcsr.getLsbD b = true ∨ ∃ j, Active i.form s j ∧ (lanesOf i.form s j).2.bits.getLsbD b = true))

/-- R89: an embedded-rounding form completes whatever MXCSR masks say: no flag set, no exception raised, each active lane
holding its masked result. -/
def Obligations.EmbeddedRoundingSuppressesExceptions : Prop :=
  ∀ (i : Instr) (s : State), i.form.er ≠ none → SimdEnabled i.form s →
    (∀ m v, i.form.src3 ≠ .mem m v) ∧
    ∃ t, exec i s = .next t ∧ t.mxcsr = s.mxcsr ∧ t.raised = s.raised ∧
      ∀ j, Active i.form s j → lane (t.zmmAt i.form.dest) j =
        (laneFma { s.laneControl i.form with masks := BitVec.allOnes 6 } i.form.digits i.form.neg
          (lane (s.zmmAt i.form.dest) j) (lane (s.zmmAt i.form.src2) j) (thirdElement i.form s j)).1

/-- R16, R82, R89: an embedded-rounding row does to the destination what the 512-bit register row of the same instruction
does with that mode in MXCSR bits 14:13 and every mask bit, MXCSR bits 12:7, set. -/
def Obligations.EmbeddedRoundingEqualsMxcsrRounding : Prop :=
  ∀ (d : Digits) (neg : Bool) (o : ErForm) (s : State), SimdEnabled (erForm d neg o) s → s.raised = none →
    (match o.rc with
      | .rn => s.mxcsr.getLsbD 14 = false ∧ s.mxcsr.getLsbD 13 = false
      | .rd => s.mxcsr.getLsbD 14 = false ∧ s.mxcsr.getLsbD 13 = true
      | .ru => s.mxcsr.getLsbD 14 = true ∧ s.mxcsr.getLsbD 13 = false
      | .rz => s.mxcsr.getLsbD 14 = true ∧ s.mxcsr.getLsbD 13 = true) →
    (∀ b, 7 ≤ b → b ≤ 12 → s.mxcsr.getLsbD b = true) →
    ∃ t t', exec (mkEr d neg o) s = .next t ∧
      exec (mkPlain d neg .v512 ⟨o.pfx, o.dest, o.src2, .reg o.src3, o.mask⟩) s = .next t' ∧ t.zmm = t'.zmm ∧
      t.rip = t'.rip ∧ t.raised = none ∧ t'.raised = none

/-- R140: the sources are intact after a raised SIMD exception: executing the instruction again with every exception
masked writes what it would have written with every exception masked in the first place. -/
def Obligations.RestartAfterSimdException : Prop :=
  ∀ (i : Instr) (s t : State), s.raised = none → exec i s = .next t → t.raised = some .xm →
    ∃ t1 t2, exec i ((t.setRaised none).maskAll) = .next t1 ∧ exec i s.maskAll = .next t2 ∧ t1.raised = none ∧
      t2.raised = none ∧ t1.zmm = t2.zmm ∧ t1.rip = t2.rip

/-! ### The checks before the lanes -/

/-- R131, R64 (U6 to U9), and the AVX512F flag of R22 (taken as one more feature of U6, log 25): a form whose features,
operating-system support or mode are missing raises #UD and changes nothing else. -/
def Obligations.DisabledFormsRaiseUd : Prop :=
  ∀ (i : Instr) (s : State),
    (s.cr0.getLsbD 0 = false ∨ s.rflags.getLsbD 17 = true ∨
      (s.in64BitMode = true ∧
        (s.config.hasAvx512f = false ∨ s.config.hasAvx512Fp16 = false ∨
          (i.form.vl ≠ .v512 ∧ s.config.hasAvx512Vl = false) ∨ s.cr4.getLsbD 18 = false ∨
          s.xcr0.extractLsb' 1 2 ≠ 3#2 ∨ s.xcr0.extractLsb' 5 3 ≠ 7#3))) →
    RaisesOnly (exec i s) .ud s

/-- R132: CR0.TS = 1 raises #NM after the #UD checks, and changes nothing else. -/
def Obligations.TaskSwitchedRaisesNm : Prop :=
  ∀ (i : Instr) (s : State), s.in64BitMode = true → s.config.hasAvx512f = true → s.config.hasAvx512Fp16 = true →
    (i.form.vl = .v512 ∨ s.config.hasAvx512Vl = true) → s.osEnabled = true → s.cr0.getLsbD 3 = true →
    RaisesOnly (exec i s) .nm s

/-- R133 and the operand part of R134: a memory form with a non-canonical byte in its operand, needed or not, raises
#SS(0) when the segment is SS and #GP(0) otherwise, and changes nothing else (the last override decides, log 14; needed or
not, log 15). -/
def Obligations.NonCanonicalOperandRaises : Prop :=
  ∀ (i : Instr) (s : State) (bcst : Bool) (m : MemOperand) (k : Nat), i.form.src3 = .mem bcst m →
    SimdEnabled i.form s → k < operandSize i.form.vl bcst →
    s.canonical (s.linearAddress i.form bcst m + BitVec.ofNat 64 k) = false →
    (segOverride i.form.pfx = some .ss ∨ (segOverride i.form.pfx = none ∧ stackBase m = true) →
      RaisesOnly (exec i s) .ss s) ∧
    (¬ (segOverride i.form.pfx = some .ss ∨ (segOverride i.form.pfx = none ∧ stackBase m = true)) →
      RaisesOnly (exec i s) .gp s) ∧
    Exception.ss.errorCode = some 0#32 ∧ Exception.gp.errorCode = some 0#32

/-- R135: a needed byte that does not translate raises #PF with the code `Translate` returns, CR2 receives a faulting
address, nothing else changes; and #PF is raised only for a needed byte. (That it comes before a device or absent byte of
the same operand is the model's choice, log 27.) -/
def Obligations.NeededByteRaisesPageFault : Prop :=
  ∀ (i : Instr) (s : State) (bcst : Bool) (m : MemOperand), i.form.src3 = .mem bcst m → SimdEnabled i.form s →
    s.operandCanonical i.form bcst (s.linearAddress i.form bcst m) = true →
    ((∃ a ∈ s.neededBytes i.form bcst (s.linearAddress i.form bcst m), ∃ c, s.translate .read a = .pageFault c) →
      ∃ la code, la ∈ s.neededBytes i.form bcst (s.linearAddress i.form bcst m) ∧
        s.translate .read la = .pageFault code ∧
        exec i s = .next { s with cr2 := la, raised := some (.pf code la) }) ∧
    (∀ t code la, s.raised = none → exec i s = .next t → t.raised = some (.pf code la) →
      la ∈ s.neededBytes i.form bcst (s.linearAddress i.form bcst m) ∧ s.translate .read la = .pageFault code)

/-- R41, R43: with every needed byte translated, one in device memory is refused, and one that memory does not hold leaves
the machine stuck (a fault of the model, log 4; device ranges are launch data, and that only needed bytes there count is the
model's choice, log 17; so is that a device byte refuses even when another is absent, log 27). -/
def Obligations.DeviceAndAbsentOperandsStop : Prop :=
  ∀ (i : Instr) (s : State) (bcst : Bool) (m : MemOperand), i.form.src3 = .mem bcst m → SimdEnabled i.form s →
    s.operandCanonical i.form bcst (s.linearAddress i.form bcst m) = true →
    (∀ a ∈ s.neededBytes i.form bcst (s.linearAddress i.form bcst m), ∃ pa, s.translate .read a = .phys pa) →
    ((∃ a ∈ s.neededBytes i.form bcst (s.linearAddress i.form bcst m), s.readByte .read a = .device) →
      exec i s = .refused .deviceMemory) ∧
    ((∀ a ∈ s.neededBytes i.form bcst (s.linearAddress i.form bcst m), s.readByte .read a ≠ .device) →
      (∃ a ∈ s.neededBytes i.form bcst (s.linearAddress i.form bcst m), s.readByte .read a = .absent) →
      exec i s = .fault .absentMemory)

/-- R136: no step raises #AC. -/
def Obligations.AlignmentCheckNeverRaised : Prop :=
  ∀ (s t : State), step s = .next t → t.raised ≠ some .ac

/-- R144: the privilege level enters only through `Translate`: where no range of it names a level, changing the level
changes nothing (the level is CS.RPL, the model's reading, log 30). -/
def Obligations.PrivilegeLevelDoesNotMatter : Prop :=
  ∀ (i : Instr) (s : State) (sel : BitVec 16), (∀ r ∈ s.translation, r.cpl = none) →
    exec i { s with csSelector := sel } = mapNext (fun t => { t with csSelector := sel }) (exec i s)

/-! ### Memory operands -/

/-- R32: a memory element is little-endian: the byte at the lower address is its bits 7:0. -/
def Obligations.ElementsAreLittleEndian : Prop :=
  ∀ (s : State) (la : Addr) (j : Nat) (lo hi : Byte),
    s.readByte .read (la + BitVec.ofNat 64 (2 * j)) = .byte lo →
    s.readByte .read (la + BitVec.ofNat 64 (2 * j + 1)) = .byte hi →
    (s.element (elementAddress false la j)).extractLsb' 0 8 = lo ∧
      (s.element (elementAddress false la j)).extractLsb' 8 8 = hi

/-- R36 to R38: the linear address of each operand form, written out; an address-size prefix keeps the low 32 bits of the
effective address, and an FS or GS override adds its base. -/
def Obligations.LinearAddressForms : Prop :=
  (∀ (s : State) (f : Form), f.pfx = [] →
    (∀ b x base, s.linearAddress f b (.baseDisp x base .none) = s.gprAt base) ∧
    (∀ x base (d : BitVec 8), s.linearAddress f false (.baseDisp x base (.d8 d)) =
      s.gprAt base + d.signExtend 64 * BitVec.ofNat 64 (f.vl.bits / 8)) ∧
    (∀ x base (d : BitVec 8), s.linearAddress f true (.baseDisp x base (.d8 d)) = s.gprAt base + d.signExtend 64 * 2#64) ∧
    (∀ b x base (d : BitVec 32), s.linearAddress f b (.baseDisp x base (.d32 d)) = s.gprAt base + d.signExtend 64) ∧
    (∀ b x y (d : BitVec 32), s.linearAddress f b (.ripRel x y d) =
      s.rip + BitVec.ofNat 64 f.ilen + d.signExtend 64) ∧
    (∀ b base (index : Gpr) sc, index ≠ 4#4 → s.linearAddress f b (.sib base index sc .none) =
      s.gprAt base + s.gprAt index * 2 ^ sc.toNat) ∧
    (∀ base (index : Gpr) sc (d : BitVec 8), index ≠ 4#4 → s.linearAddress f false (.sib base index sc (.d8 d)) =
      s.gprAt base + s.gprAt index * 2 ^ sc.toNat + d.signExtend 64 * BitVec.ofNat 64 (f.vl.bits / 8)) ∧
    (∀ base (index : Gpr) sc (d : BitVec 8), index ≠ 4#4 → s.linearAddress f true (.sib base index sc (.d8 d)) =
      s.gprAt base + s.gprAt index * 2 ^ sc.toNat + d.signExtend 64 * 2#64) ∧
    (∀ b base sc, s.linearAddress f b (.sib base 4#4 sc .none) = s.gprAt base) ∧
    (∀ base sc (d : BitVec 8), s.linearAddress f false (.sib base 4#4 sc (.d8 d)) =
      s.gprAt base + d.signExtend 64 * BitVec.ofNat 64 (f.vl.bits / 8)) ∧
    (∀ base sc (d : BitVec 8), s.linearAddress f true (.sib base 4#4 sc (.d8 d)) =
      s.gprAt base + d.signExtend 64 * 2#64) ∧
    (∀ b base (index : Gpr) sc (d : BitVec 32), index ≠ 4#4 → s.linearAddress f b (.sib base index sc (.d32 d)) =
      s.gprAt base + s.gprAt index * 2 ^ sc.toNat + d.signExtend 64) ∧
    (∀ b base sc (d : BitVec 32), s.linearAddress f b (.sib base 4#4 sc (.d32 d)) = s.gprAt base + d.signExtend 64) ∧
    (∀ b y sc (d : BitVec 32), s.linearAddress f b (.sibNoBase y 4#4 sc d) = d.signExtend 64) ∧
    (∀ b y (index : Gpr) sc (d : BitVec 32), index ≠ 4#4 → s.linearAddress f b (.sibNoBase y index sc d) =
      s.gprAt index * 2 ^ sc.toNat + d.signExtend 64)) ∧
  ∀ (s : State) (f : Form) (b : Bool) (m : MemOperand),
    (hasAddr32 f.pfx = true → s.effectiveAddress f b m =
      ((s.rawAddress (s.rip + BitVec.ofNat 64 f.ilen) (dispScale f.vl b) m).setWidth 32).setWidth 64) ∧
    (segOverride f.pfx = some .fs → s.linearAddress f b m = s.fsBase + s.effectiveAddress f b m) ∧
    (segOverride f.pfx = some .gs → s.linearAddress f b m = s.gsBase + s.effectiveAddress f b m) ∧
    (segOverride f.pfx ≠ some .fs → segOverride f.pfx ≠ some .gs → s.linearAddress f b m = s.effectiveAddress f b m)

/-- R33, R84: a memory form, broadcast or not, does to the destination and MXCSR what the register form does whose third
register holds in every lane the element that the memory form uses. -/
def Obligations.MemoryFormActsAsRegisterForm : Prop :=
  ∀ (d : Digits) (neg : Bool) (vl : VecLen) (o : PlainForm) (bcst : Bool) (m : MemOperand) (r : VReg) (s t : State),
    o.src3 = .mem bcst m → r.toNat < s.config.nVec → SimdEnabled (plainForm d neg vl o) s →
    OperandReadable (plainForm d neg vl o) s →
    (∀ j, Active (plainForm d neg vl o) s j →
      lane (s.zmmAt r) j =
        s.element (elementAddress bcst (s.linearAddress (plainForm d neg vl o) bcst m) j)) →
    exec (mkPlain d neg vl o) s = .next t →
    ∃ t', exec (mkPlain d neg vl { o with src3 := .reg r }) s = .next t' ∧ t'.zmm = t.zmm ∧ t'.mxcsr = t.mxcsr ∧
      t'.raised = t.raised

/-! ### The machine -/

/-- R26: the values after RESET (RDX holds the identification, for which the spec gives no number) and what INIT changes
(CD and NW are CR0 bits 30 and 29, log 26). -/
def Obligations.ResetAndInitValues : Prop :=
  (∀ r, State.reset.zmmReg r = ⟨0, 0⟩) ∧ (∀ r, State.reset.kAt r = 0) ∧ State.reset.mxcsr = 0x1F80#32 ∧
  (∀ r, r ≠ 2#4 → State.reset.gprAt r = 0) ∧ State.reset.rip = 0xFFF0#64 ∧ State.reset.csBase = 0xFFFF0000#64 ∧
  State.reset.csSelector = 0xF000#16 ∧ State.reset.rflags = 2#64 ∧ State.reset.cr0 = 0x60000010#64 ∧
  State.reset.cr4 = 0 ∧ State.reset.xcr0 = 1#64 ∧ State.reset.efer = 0 ∧ State.reset.fsBase = 0 ∧
  State.reset.gsBase = 0 ∧ State.reset.realOrVm86 = true ∧ State.reset.cpl = 0#2 ∧ State.reset.fetchAddress = 0xFFFFFFF0#64 ∧
  ∀ s : State,
    s.initEvent.zmm = s.zmm ∧ s.initEvent.k = s.k ∧ s.initEvent.mxcsr = s.mxcsr ∧ s.initEvent.xcr0 = s.xcr0 ∧
    s.initEvent.efer = s.efer ∧ s.initEvent.gpr = State.reset.gpr ∧ s.initEvent.rip = 0xFFF0#64 ∧
    s.initEvent.csBase = 0xFFFF0000#64 ∧ s.initEvent.csSelector = 0xF000#16 ∧ s.initEvent.rflags = 2#64 ∧
    s.initEvent.cr4 = 0 ∧ s.initEvent.fsBase = 0 ∧ s.initEvent.gsBase = 0 ∧
    (∀ b, s.initEvent.cr0.getLsbD b = if b = 29 ∨ b = 30 then s.cr0.getLsbD b else State.reset.cr0.getLsbD b)

/-- R160: after RESET the processor is in real-address mode with CR4 = 0 and XCR0 = 1, so every form raises #UD; the
vector and opmask registers are 0 and MXCSR is 1F80H; INIT leaves them unchanged. -/
def Obligations.EveryFormRaisesUdAfterReset : Prop :=
  State.reset.protectedMode = false ∧ State.reset.cr4 = 0 ∧ State.reset.xcr0 = 1#64 ∧
  (∀ i, RaisesOnly (exec i State.reset) .ud State.reset) ∧
  (∀ r, State.reset.zmmReg r = ⟨0, 0⟩) ∧ (∀ r, State.reset.kAt r = 0) ∧ State.reset.mxcsr = 0x1F80#32 ∧
  ∀ s : State, s.initEvent.zmm = s.zmm ∧ s.initEvent.k = s.k ∧ s.initEvent.mxcsr = s.mxcsr

/-- R4 (D1): outside 64-bit mode, real-address mode and virtual-8086 mode every instruction and every step is refused. And
the parameters of R7 (the model's choice, log 24): an enabled form that names a vector register beyond NVEC, an opmask
register beyond NMASK, or more mask bits than KW is refused. -/
def Obligations.OtherModesRefused : Prop :=
  (∀ (s : State), s.cr0.getLsbD 0 = true → s.rflags.getLsbD 17 = false →
    (s.efer.getLsbD 10 = false ∨ s.csL = false) →
    (∀ i, exec i s = .refused .not64BitMode) ∧ (s.raised = none → step s = .refused .not64BitMode)) ∧
  ∀ (i : Instr) (s : State), s.in64BitMode = true → s.config.hasAvx512f = true → s.config.hasAvx512Fp16 = true →
    (i.form.vl = .v512 ∨ s.config.hasAvx512Vl = true) → s.osEnabled = true → s.cr0.getLsbD 3 = false →
    (s.config.nVec ≤ i.form.dest.toNat ∨ s.config.nVec ≤ i.form.src2.toNat ∨
      (∃ r, i.form.src3 = .reg r ∧ s.config.nVec ≤ r.toNat) ∨
      (∃ k, (i.form.mask = .merge k ∨ i.form.mask = .zero k) ∧
        (s.config.nMask ≤ k.toNat ∨ s.config.maskWidth < i.form.vl.lanes))) →
    exec i s = .refused .registerAbsent

/-- A step runs the instruction that the bytes at the fetch address decode to (R19, R66): with no exception pending, no
launch refusal, not at the end of the text and the next RIP canonical, `step` is `exec`. (The refusals are D1, R149, I23 and
D25: log 18, log 19.) -/
def Obligations.StepRunsDecodedInstruction : Prop :=
  ∀ (s : State) (i : Instr), s.raised = none → s.launchRefusal = none → s.atEndOfText s.fetchAddress = false →
    decode s.fetched.1 = .form i →
    (s.nextRipFits i.ilen = true → step s = exec i s) ∧ (s.nextRipFits i.ilen = false → step s = .refused .ripNotCanonical)

/-- A word placed for the next fetch is the one the next step decodes and runs: with the identity translation, no device
memory and no wrap (the model's stand-in for a launch, log 3). -/
def Obligations.PlacedWordIsExecuted : Prop :=
  ∀ (s : State) (nbits w : Nat) (i : Instr), s.raised = none → s.launchRefusal = none → s.translation = [] →
    s.devices = [] → (∀ k, k ≤ maxInstrLen → s.canonical (s.fetchAddress + BitVec.ofNat 64 k) = true) →
    s.fetchAddress.toNat + maxInstrLen < 2 ^ 64 → decodeTableWord nbits w = some i →
    step (s.withFetchWord nbits w) = exec i (s.withFetchWord nbits w)

/-- R141, R167: a run ends with the exception that was raised, and at the address after the program text; fetching beyond
the text is refused. R19: so is a step that needs an instruction byte at a non-canonical address. R149, I23 (log 19): so is
a step with RFLAGS.TF set, and one with a reserved MXCSR bit set. -/
def Obligations.RunEndsAtExceptionOrEndOfText : Prop :=
  (∀ (s : State) (e : Exception), s.raised = some e → step s = .fault (.exceptionRaised e)) ∧
  (∀ s : State, s.raised = none → s.launchRefusal = none →
    s.fetchAddress = s.text.start + BitVec.ofNat 64 s.text.size → step s = .fault .endOfProgram) ∧
  (∀ s : State, s.raised = none → s.launchRefusal = none →
    s.fetchAddress ≠ s.text.start + BitVec.ofNat 64 s.text.size →
    s.text.size ≤ (s.fetchAddress - s.text.start).toNat → step s = .refused .beyondProgramText) ∧
  (∀ (s : State) (bs : List Byte) (family : Bool), s.raised = none → s.launchRefusal = none →
    s.atEndOfText s.fetchAddress = false → s.fetched = (bs, .beyondText) → decode bs = .truncated family →
    (family = true → s.nextRipFits (shapeLength bs) = true) →
    step s = .refused .beyondProgramText) ∧
  (∀ (s : State) (bs : List Byte) (family : Bool), s.raised = none → s.launchRefusal = none →
    s.atEndOfText s.fetchAddress = false → s.fetched = (bs, .nonCanonical) → decode bs = .truncated family →
    step s = .refused .ripNotCanonical) ∧
  (∀ s : State, s.raised = none → (s.realOrVm86 = true ∨ s.in64BitMode = true) →
    (s.rflags.getLsbD 8 = true → step s = .refused .singleStepArmed) ∧
    (s.rflags.getLsbD 8 = false → s.mxcsr.extractLsb' 16 16 ≠ 0#16 → step s = .refused .mxcsrReserved))

/-- The invariant of `StepKeepsInvariant` holds at reset (R26). -/
def Obligations.InvariantHoldsAtReset : Prop := Inv State.reset

/-- Every step keeps the invariant: memory in canonical form, vector registers within MAXVL bits, the reserved MXCSR bits
0, no #AC, CR2 the address of a raised page fault (the canonical form and `raised` are the model's, log 4 and log 1). -/
def Obligations.StepKeepsInvariant : Prop :=
  ∀ (s t : State), Inv s → step s = .next t → Inv t
end

