-- ==== Sys2Proof/Laws/State.lean ====
section
/-!
SUPPORT. The small lemmas of State: every field under every update, the register reads under the writes, and the control
accessors under the updates that an instruction makes.
-/

namespace Sys2Proof.Machine

open Sys2Proof

@[simp] theorem State.setZmm_k (s : State) (r : VReg) (v : VecReg) : (s.setZmm r v).k = s.k := rfl
@[simp] theorem State.setZmm_mxcsr (s : State) (r : VReg) (v : VecReg) : (s.setZmm r v).mxcsr = s.mxcsr := rfl
@[simp] theorem State.setZmm_gpr (s : State) (r : VReg) (v : VecReg) : (s.setZmm r v).gpr = s.gpr := rfl
@[simp] theorem State.setZmm_rip (s : State) (r : VReg) (v : VecReg) : (s.setZmm r v).rip = s.rip := rfl
@[simp] theorem State.setZmm_rflags (s : State) (r : VReg) (v : VecReg) : (s.setZmm r v).rflags = s.rflags := rfl
@[simp] theorem State.setZmm_fsBase (s : State) (r : VReg) (v : VecReg) : (s.setZmm r v).fsBase = s.fsBase := rfl
@[simp] theorem State.setZmm_gsBase (s : State) (r : VReg) (v : VecReg) : (s.setZmm r v).gsBase = s.gsBase := rfl
@[simp] theorem State.setZmm_csSelector (s : State) (r : VReg) (v : VecReg) : (s.setZmm r v).csSelector = s.csSelector := rfl
@[simp] theorem State.setZmm_csBase (s : State) (r : VReg) (v : VecReg) : (s.setZmm r v).csBase = s.csBase := rfl
@[simp] theorem State.setZmm_csL (s : State) (r : VReg) (v : VecReg) : (s.setZmm r v).csL = s.csL := rfl
@[simp] theorem State.setZmm_cr0 (s : State) (r : VReg) (v : VecReg) : (s.setZmm r v).cr0 = s.cr0 := rfl
@[simp] theorem State.setZmm_cr2 (s : State) (r : VReg) (v : VecReg) : (s.setZmm r v).cr2 = s.cr2 := rfl
@[simp] theorem State.setZmm_cr4 (s : State) (r : VReg) (v : VecReg) : (s.setZmm r v).cr4 = s.cr4 := rfl
@[simp] theorem State.setZmm_xcr0 (s : State) (r : VReg) (v : VecReg) : (s.setZmm r v).xcr0 = s.xcr0 := rfl
@[simp] theorem State.setZmm_efer (s : State) (r : VReg) (v : VecReg) : (s.setZmm r v).efer = s.efer := rfl
@[simp] theorem State.setZmm_mem (s : State) (r : VReg) (v : VecReg) : (s.setZmm r v).mem = s.mem := rfl
@[simp] theorem State.setZmm_translation (s : State) (r : VReg) (v : VecReg) : (s.setZmm r v).translation = s.translation := rfl
@[simp] theorem State.setZmm_devices (s : State) (r : VReg) (v : VecReg) : (s.setZmm r v).devices = s.devices := rfl
@[simp] theorem State.setZmm_text (s : State) (r : VReg) (v : VecReg) : (s.setZmm r v).text = s.text := rfl
@[simp] theorem State.setZmm_config (s : State) (r : VReg) (v : VecReg) : (s.setZmm r v).config = s.config := rfl
@[simp] theorem State.setZmm_raised (s : State) (r : VReg) (v : VecReg) : (s.setZmm r v).raised = s.raised := rfl

@[simp] theorem State.setRip_zmm (s : State) (a : Addr) : (s.setRip a).zmm = s.zmm := rfl
@[simp] theorem State.setRip_k (s : State) (a : Addr) : (s.setRip a).k = s.k := rfl
@[simp] theorem State.setRip_mxcsr (s : State) (a : Addr) : (s.setRip a).mxcsr = s.mxcsr := rfl
@[simp] theorem State.setRip_gpr (s : State) (a : Addr) : (s.setRip a).gpr = s.gpr := rfl
@[simp] theorem State.setRip_rip (s : State) (a : Addr) : (s.setRip a).rip = a := rfl
@[simp] theorem State.setRip_rflags (s : State) (a : Addr) : (s.setRip a).rflags = s.rflags := rfl
@[simp] theorem State.setRip_fsBase (s : State) (a : Addr) : (s.setRip a).fsBase = s.fsBase := rfl
@[simp] theorem State.setRip_gsBase (s : State) (a : Addr) : (s.setRip a).gsBase = s.gsBase := rfl
@[simp] theorem State.setRip_csSelector (s : State) (a : Addr) : (s.setRip a).csSelector = s.csSelector := rfl
@[simp] theorem State.setRip_csBase (s : State) (a : Addr) : (s.setRip a).csBase = s.csBase := rfl
@[simp] theorem State.setRip_csL (s : State) (a : Addr) : (s.setRip a).csL = s.csL := rfl
@[simp] theorem State.setRip_cr0 (s : State) (a : Addr) : (s.setRip a).cr0 = s.cr0 := rfl
@[simp] theorem State.setRip_cr2 (s : State) (a : Addr) : (s.setRip a).cr2 = s.cr2 := rfl
@[simp] theorem State.setRip_cr4 (s : State) (a : Addr) : (s.setRip a).cr4 = s.cr4 := rfl
@[simp] theorem State.setRip_xcr0 (s : State) (a : Addr) : (s.setRip a).xcr0 = s.xcr0 := rfl
@[simp] theorem State.setRip_efer (s : State) (a : Addr) : (s.setRip a).efer = s.efer := rfl
@[simp] theorem State.setRip_mem (s : State) (a : Addr) : (s.setRip a).mem = s.mem := rfl
@[simp] theorem State.setRip_translation (s : State) (a : Addr) : (s.setRip a).translation = s.translation := rfl
@[simp] theorem State.setRip_devices (s : State) (a : Addr) : (s.setRip a).devices = s.devices := rfl
@[simp] theorem State.setRip_text (s : State) (a : Addr) : (s.setRip a).text = s.text := rfl
@[simp] theorem State.setRip_config (s : State) (a : Addr) : (s.setRip a).config = s.config := rfl
@[simp] theorem State.setRip_raised (s : State) (a : Addr) : (s.setRip a).raised = s.raised := rfl

@[simp] theorem State.setMxcsr_zmm (s : State) (v : BitVec 32) : (s.setMxcsr v).zmm = s.zmm := rfl
@[simp] theorem State.setMxcsr_k (s : State) (v : BitVec 32) : (s.setMxcsr v).k = s.k := rfl
@[simp] theorem State.setMxcsr_mxcsr (s : State) (v : BitVec 32) : (s.setMxcsr v).mxcsr = v := rfl
@[simp] theorem State.setMxcsr_gpr (s : State) (v : BitVec 32) : (s.setMxcsr v).gpr = s.gpr := rfl
@[simp] theorem State.setMxcsr_rip (s : State) (v : BitVec 32) : (s.setMxcsr v).rip = s.rip := rfl
@[simp] theorem State.setMxcsr_rflags (s : State) (v : BitVec 32) : (s.setMxcsr v).rflags = s.rflags := rfl
@[simp] theorem State.setMxcsr_fsBase (s : State) (v : BitVec 32) : (s.setMxcsr v).fsBase = s.fsBase := rfl
@[simp] theorem State.setMxcsr_gsBase (s : State) (v : BitVec 32) : (s.setMxcsr v).gsBase = s.gsBase := rfl
@[simp] theorem State.setMxcsr_csSelector (s : State) (v : BitVec 32) : (s.setMxcsr v).csSelector = s.csSelector := rfl
@[simp] theorem State.setMxcsr_csBase (s : State) (v : BitVec 32) : (s.setMxcsr v).csBase = s.csBase := rfl
@[simp] theorem State.setMxcsr_csL (s : State) (v : BitVec 32) : (s.setMxcsr v).csL = s.csL := rfl
@[simp] theorem State.setMxcsr_cr0 (s : State) (v : BitVec 32) : (s.setMxcsr v).cr0 = s.cr0 := rfl
@[simp] theorem State.setMxcsr_cr2 (s : State) (v : BitVec 32) : (s.setMxcsr v).cr2 = s.cr2 := rfl
@[simp] theorem State.setMxcsr_cr4 (s : State) (v : BitVec 32) : (s.setMxcsr v).cr4 = s.cr4 := rfl
@[simp] theorem State.setMxcsr_xcr0 (s : State) (v : BitVec 32) : (s.setMxcsr v).xcr0 = s.xcr0 := rfl
@[simp] theorem State.setMxcsr_efer (s : State) (v : BitVec 32) : (s.setMxcsr v).efer = s.efer := rfl
@[simp] theorem State.setMxcsr_mem (s : State) (v : BitVec 32) : (s.setMxcsr v).mem = s.mem := rfl
@[simp] theorem State.setMxcsr_translation (s : State) (v : BitVec 32) : (s.setMxcsr v).translation = s.translation := rfl
@[simp] theorem State.setMxcsr_devices (s : State) (v : BitVec 32) : (s.setMxcsr v).devices = s.devices := rfl
@[simp] theorem State.setMxcsr_text (s : State) (v : BitVec 32) : (s.setMxcsr v).text = s.text := rfl
@[simp] theorem State.setMxcsr_config (s : State) (v : BitVec 32) : (s.setMxcsr v).config = s.config := rfl
@[simp] theorem State.setMxcsr_raised (s : State) (v : BitVec 32) : (s.setMxcsr v).raised = s.raised := rfl

@[simp] theorem State.setCr2_zmm (s : State) (a : Addr) : (s.setCr2 a).zmm = s.zmm := rfl
@[simp] theorem State.setCr2_k (s : State) (a : Addr) : (s.setCr2 a).k = s.k := rfl
@[simp] theorem State.setCr2_mxcsr (s : State) (a : Addr) : (s.setCr2 a).mxcsr = s.mxcsr := rfl
@[simp] theorem State.setCr2_gpr (s : State) (a : Addr) : (s.setCr2 a).gpr = s.gpr := rfl
@[simp] theorem State.setCr2_rip (s : State) (a : Addr) : (s.setCr2 a).rip = s.rip := rfl
@[simp] theorem State.setCr2_rflags (s : State) (a : Addr) : (s.setCr2 a).rflags = s.rflags := rfl
@[simp] theorem State.setCr2_fsBase (s : State) (a : Addr) : (s.setCr2 a).fsBase = s.fsBase := rfl
@[simp] theorem State.setCr2_gsBase (s : State) (a : Addr) : (s.setCr2 a).gsBase = s.gsBase := rfl
@[simp] theorem State.setCr2_csSelector (s : State) (a : Addr) : (s.setCr2 a).csSelector = s.csSelector := rfl
@[simp] theorem State.setCr2_csBase (s : State) (a : Addr) : (s.setCr2 a).csBase = s.csBase := rfl
@[simp] theorem State.setCr2_csL (s : State) (a : Addr) : (s.setCr2 a).csL = s.csL := rfl
@[simp] theorem State.setCr2_cr0 (s : State) (a : Addr) : (s.setCr2 a).cr0 = s.cr0 := rfl
@[simp] theorem State.setCr2_cr2 (s : State) (a : Addr) : (s.setCr2 a).cr2 = a := rfl
@[simp] theorem State.setCr2_cr4 (s : State) (a : Addr) : (s.setCr2 a).cr4 = s.cr4 := rfl
@[simp] theorem State.setCr2_xcr0 (s : State) (a : Addr) : (s.setCr2 a).xcr0 = s.xcr0 := rfl
@[simp] theorem State.setCr2_efer (s : State) (a : Addr) : (s.setCr2 a).efer = s.efer := rfl
@[simp] theorem State.setCr2_mem (s : State) (a : Addr) : (s.setCr2 a).mem = s.mem := rfl
@[simp] theorem State.setCr2_translation (s : State) (a : Addr) : (s.setCr2 a).translation = s.translation := rfl
@[simp] theorem State.setCr2_devices (s : State) (a : Addr) : (s.setCr2 a).devices = s.devices := rfl
@[simp] theorem State.setCr2_text (s : State) (a : Addr) : (s.setCr2 a).text = s.text := rfl
@[simp] theorem State.setCr2_config (s : State) (a : Addr) : (s.setCr2 a).config = s.config := rfl
@[simp] theorem State.setCr2_raised (s : State) (a : Addr) : (s.setCr2 a).raised = s.raised := rfl

@[simp] theorem State.setRaised_zmm (s : State) (e : Option Exception) : (s.setRaised e).zmm = s.zmm := rfl
@[simp] theorem State.setRaised_k (s : State) (e : Option Exception) : (s.setRaised e).k = s.k := rfl
@[simp] theorem State.setRaised_mxcsr (s : State) (e : Option Exception) : (s.setRaised e).mxcsr = s.mxcsr := rfl
@[simp] theorem State.setRaised_gpr (s : State) (e : Option Exception) : (s.setRaised e).gpr = s.gpr := rfl
@[simp] theorem State.setRaised_rip (s : State) (e : Option Exception) : (s.setRaised e).rip = s.rip := rfl
@[simp] theorem State.setRaised_rflags (s : State) (e : Option Exception) : (s.setRaised e).rflags = s.rflags := rfl
@[simp] theorem State.setRaised_fsBase (s : State) (e : Option Exception) : (s.setRaised e).fsBase = s.fsBase := rfl
@[simp] theorem State.setRaised_gsBase (s : State) (e : Option Exception) : (s.setRaised e).gsBase = s.gsBase := rfl
@[simp] theorem State.setRaised_csSelector (s : State) (e : Option Exception) : (s.setRaised e).csSelector = s.csSelector := rfl
@[simp] theorem State.setRaised_csBase (s : State) (e : Option Exception) : (s.setRaised e).csBase = s.csBase := rfl
@[simp] theorem State.setRaised_csL (s : State) (e : Option Exception) : (s.setRaised e).csL = s.csL := rfl
@[simp] theorem State.setRaised_cr0 (s : State) (e : Option Exception) : (s.setRaised e).cr0 = s.cr0 := rfl
@[simp] theorem State.setRaised_cr2 (s : State) (e : Option Exception) : (s.setRaised e).cr2 = s.cr2 := rfl
@[simp] theorem State.setRaised_cr4 (s : State) (e : Option Exception) : (s.setRaised e).cr4 = s.cr4 := rfl
@[simp] theorem State.setRaised_xcr0 (s : State) (e : Option Exception) : (s.setRaised e).xcr0 = s.xcr0 := rfl
@[simp] theorem State.setRaised_efer (s : State) (e : Option Exception) : (s.setRaised e).efer = s.efer := rfl
@[simp] theorem State.setRaised_mem (s : State) (e : Option Exception) : (s.setRaised e).mem = s.mem := rfl
@[simp] theorem State.setRaised_translation (s : State) (e : Option Exception) : (s.setRaised e).translation = s.translation := rfl
@[simp] theorem State.setRaised_devices (s : State) (e : Option Exception) : (s.setRaised e).devices = s.devices := rfl
@[simp] theorem State.setRaised_text (s : State) (e : Option Exception) : (s.setRaised e).text = s.text := rfl
@[simp] theorem State.setRaised_config (s : State) (e : Option Exception) : (s.setRaised e).config = s.config := rfl
@[simp] theorem State.setRaised_raised (s : State) (e : Option Exception) : (s.setRaised e).raised = e := rfl

@[simp] theorem State.setMem_zmm (s : State) (m : Memory) : (s.setMem m).zmm = s.zmm := rfl
@[simp] theorem State.setMem_k (s : State) (m : Memory) : (s.setMem m).k = s.k := rfl
@[simp] theorem State.setMem_mxcsr (s : State) (m : Memory) : (s.setMem m).mxcsr = s.mxcsr := rfl
@[simp] theorem State.setMem_gpr (s : State) (m : Memory) : (s.setMem m).gpr = s.gpr := rfl
@[simp] theorem State.setMem_rip (s : State) (m : Memory) : (s.setMem m).rip = s.rip := rfl
@[simp] theorem State.setMem_rflags (s : State) (m : Memory) : (s.setMem m).rflags = s.rflags := rfl
@[simp] theorem State.setMem_fsBase (s : State) (m : Memory) : (s.setMem m).fsBase = s.fsBase := rfl
@[simp] theorem State.setMem_gsBase (s : State) (m : Memory) : (s.setMem m).gsBase = s.gsBase := rfl
@[simp] theorem State.setMem_csSelector (s : State) (m : Memory) : (s.setMem m).csSelector = s.csSelector := rfl
@[simp] theorem State.setMem_csBase (s : State) (m : Memory) : (s.setMem m).csBase = s.csBase := rfl
@[simp] theorem State.setMem_csL (s : State) (m : Memory) : (s.setMem m).csL = s.csL := rfl
@[simp] theorem State.setMem_cr0 (s : State) (m : Memory) : (s.setMem m).cr0 = s.cr0 := rfl
@[simp] theorem State.setMem_cr2 (s : State) (m : Memory) : (s.setMem m).cr2 = s.cr2 := rfl
@[simp] theorem State.setMem_cr4 (s : State) (m : Memory) : (s.setMem m).cr4 = s.cr4 := rfl
@[simp] theorem State.setMem_xcr0 (s : State) (m : Memory) : (s.setMem m).xcr0 = s.xcr0 := rfl
@[simp] theorem State.setMem_efer (s : State) (m : Memory) : (s.setMem m).efer = s.efer := rfl
@[simp] theorem State.setMem_mem (s : State) (m : Memory) : (s.setMem m).mem = m := rfl
@[simp] theorem State.setMem_translation (s : State) (m : Memory) : (s.setMem m).translation = s.translation := rfl
@[simp] theorem State.setMem_devices (s : State) (m : Memory) : (s.setMem m).devices = s.devices := rfl
@[simp] theorem State.setMem_text (s : State) (m : Memory) : (s.setMem m).text = s.text := rfl
@[simp] theorem State.setMem_config (s : State) (m : Memory) : (s.setMem m).config = s.config := rfl
@[simp] theorem State.setMem_raised (s : State) (m : Memory) : (s.setMem m).raised = s.raised := rfl

@[simp] theorem State.setText_zmm (s : State) (t : ProgramText) : (s.setText t).zmm = s.zmm := rfl
@[simp] theorem State.setText_k (s : State) (t : ProgramText) : (s.setText t).k = s.k := rfl
@[simp] theorem State.setText_mxcsr (s : State) (t : ProgramText) : (s.setText t).mxcsr = s.mxcsr := rfl
@[simp] theorem State.setText_gpr (s : State) (t : ProgramText) : (s.setText t).gpr = s.gpr := rfl
@[simp] theorem State.setText_rip (s : State) (t : ProgramText) : (s.setText t).rip = s.rip := rfl
@[simp] theorem State.setText_rflags (s : State) (t : ProgramText) : (s.setText t).rflags = s.rflags := rfl
@[simp] theorem State.setText_fsBase (s : State) (t : ProgramText) : (s.setText t).fsBase = s.fsBase := rfl
@[simp] theorem State.setText_gsBase (s : State) (t : ProgramText) : (s.setText t).gsBase = s.gsBase := rfl
@[simp] theorem State.setText_csSelector (s : State) (t : ProgramText) : (s.setText t).csSelector = s.csSelector := rfl
@[simp] theorem State.setText_csBase (s : State) (t : ProgramText) : (s.setText t).csBase = s.csBase := rfl
@[simp] theorem State.setText_csL (s : State) (t : ProgramText) : (s.setText t).csL = s.csL := rfl
@[simp] theorem State.setText_cr0 (s : State) (t : ProgramText) : (s.setText t).cr0 = s.cr0 := rfl
@[simp] theorem State.setText_cr2 (s : State) (t : ProgramText) : (s.setText t).cr2 = s.cr2 := rfl
@[simp] theorem State.setText_cr4 (s : State) (t : ProgramText) : (s.setText t).cr4 = s.cr4 := rfl
@[simp] theorem State.setText_xcr0 (s : State) (t : ProgramText) : (s.setText t).xcr0 = s.xcr0 := rfl
@[simp] theorem State.setText_efer (s : State) (t : ProgramText) : (s.setText t).efer = s.efer := rfl
@[simp] theorem State.setText_mem (s : State) (t : ProgramText) : (s.setText t).mem = s.mem := rfl
@[simp] theorem State.setText_translation (s : State) (t : ProgramText) : (s.setText t).translation = s.translation := rfl
@[simp] theorem State.setText_devices (s : State) (t : ProgramText) : (s.setText t).devices = s.devices := rfl
@[simp] theorem State.setText_text (s : State) (t : ProgramText) : (s.setText t).text = t := rfl
@[simp] theorem State.setText_config (s : State) (t : ProgramText) : (s.setText t).config = s.config := rfl
@[simp] theorem State.setText_raised (s : State) (t : ProgramText) : (s.setText t).raised = s.raised := rfl

/-! ### Register reads under writes -/

@[simp] theorem State.zmmReg_setZmm_self (s : State) (r : VReg) (v : VecReg) : (s.setZmm r v).zmmReg r = v := by
  simp [State.zmmReg, State.setZmm]

theorem State.zmmReg_setZmm_other (s : State) {r r' : VReg} (v : VecReg) (h : r' ≠ r) :
    (s.setZmm r v).zmmReg r' = s.zmmReg r' := by
  have hn : r.toNat ≠ r'.toNat := fun e => h (BitVec.eq_of_toNat_eq e.symm)
  simp [State.zmmReg, State.setZmm, hn]

@[simp] theorem State.zmmAt_setZmm_self (s : State) (r : VReg) (v : VecReg) : (s.setZmm r v).zmmAt r = v.low := by
  simp [State.zmmAt]

theorem State.zmmAt_setZmm_other (s : State) {r r' : VReg} (v : VecReg) (h : r' ≠ r) :
    (s.setZmm r v).zmmAt r' = s.zmmAt r' := by
  simp [State.zmmAt, State.zmmReg_setZmm_other s v h]

@[simp] theorem State.kAt_setZmm (s : State) (r : VReg) (v : VecReg) (r' : KReg) : (s.setZmm r v).kAt r' = s.kAt r' := rfl
@[simp] theorem State.gprAt_setZmm (s : State) (r : VReg) (v : VecReg) (r' : Gpr) : (s.setZmm r v).gprAt r' = s.gprAt r' := rfl
@[simp] theorem State.zmmAt_setRip (s : State) (a : Addr) (r' : VReg) : (s.setRip a).zmmAt r' = s.zmmAt r' := rfl
@[simp] theorem State.zmmReg_setRip (s : State) (a : Addr) (r' : VReg) : (s.setRip a).zmmReg r' = s.zmmReg r' := rfl
@[simp] theorem State.kAt_setRip (s : State) (a : Addr) (r' : KReg) : (s.setRip a).kAt r' = s.kAt r' := rfl
@[simp] theorem State.gprAt_setRip (s : State) (a : Addr) (r' : Gpr) : (s.setRip a).gprAt r' = s.gprAt r' := rfl
@[simp] theorem State.zmmAt_setMxcsr (s : State) (v : BitVec 32) (r' : VReg) : (s.setMxcsr v).zmmAt r' = s.zmmAt r' := rfl
@[simp] theorem State.zmmReg_setMxcsr (s : State) (v : BitVec 32) (r' : VReg) : (s.setMxcsr v).zmmReg r' = s.zmmReg r' := rfl
@[simp] theorem State.kAt_setMxcsr (s : State) (v : BitVec 32) (r' : KReg) : (s.setMxcsr v).kAt r' = s.kAt r' := rfl
@[simp] theorem State.gprAt_setMxcsr (s : State) (v : BitVec 32) (r' : Gpr) : (s.setMxcsr v).gprAt r' = s.gprAt r' := rfl
@[simp] theorem State.zmmAt_setCr2 (s : State) (a : Addr) (r' : VReg) : (s.setCr2 a).zmmAt r' = s.zmmAt r' := rfl
@[simp] theorem State.zmmReg_setCr2 (s : State) (a : Addr) (r' : VReg) : (s.setCr2 a).zmmReg r' = s.zmmReg r' := rfl
@[simp] theorem State.kAt_setCr2 (s : State) (a : Addr) (r' : KReg) : (s.setCr2 a).kAt r' = s.kAt r' := rfl
@[simp] theorem State.gprAt_setCr2 (s : State) (a : Addr) (r' : Gpr) : (s.setCr2 a).gprAt r' = s.gprAt r' := rfl
@[simp] theorem State.zmmAt_setRaised (s : State) (e : Option Exception) (r' : VReg) : (s.setRaised e).zmmAt r' = s.zmmAt r' := rfl
@[simp] theorem State.zmmReg_setRaised (s : State) (e : Option Exception) (r' : VReg) : (s.setRaised e).zmmReg r' = s.zmmReg r' := rfl
@[simp] theorem State.kAt_setRaised (s : State) (e : Option Exception) (r' : KReg) : (s.setRaised e).kAt r' = s.kAt r' := rfl
@[simp] theorem State.gprAt_setRaised (s : State) (e : Option Exception) (r' : Gpr) : (s.setRaised e).gprAt r' = s.gprAt r' := rfl
@[simp] theorem State.zmmAt_setMem (s : State) (m : Memory) (r' : VReg) : (s.setMem m).zmmAt r' = s.zmmAt r' := rfl
@[simp] theorem State.zmmReg_setMem (s : State) (m : Memory) (r' : VReg) : (s.setMem m).zmmReg r' = s.zmmReg r' := rfl
@[simp] theorem State.kAt_setMem (s : State) (m : Memory) (r' : KReg) : (s.setMem m).kAt r' = s.kAt r' := rfl
@[simp] theorem State.gprAt_setMem (s : State) (m : Memory) (r' : Gpr) : (s.setMem m).gprAt r' = s.gprAt r' := rfl
@[simp] theorem State.zmmAt_setText (s : State) (t : ProgramText) (r' : VReg) : (s.setText t).zmmAt r' = s.zmmAt r' := rfl
@[simp] theorem State.zmmReg_setText (s : State) (t : ProgramText) (r' : VReg) : (s.setText t).zmmReg r' = s.zmmReg r' := rfl
@[simp] theorem State.kAt_setText (s : State) (t : ProgramText) (r' : KReg) : (s.setText t).kAt r' = s.kAt r' := rfl
@[simp] theorem State.gprAt_setText (s : State) (t : ProgramText) (r' : Gpr) : (s.setText t).gprAt r' = s.gprAt r' := rfl

/-! ### Accessors under the updates of an instruction -/

@[simp] theorem State.protectedMode_setZmm (s : State) (r : VReg) (v : VecReg) : (s.setZmm r v).protectedMode = s.protectedMode := rfl
@[simp] theorem State.taskSwitched_setZmm (s : State) (r : VReg) (v : VecReg) : (s.setZmm r v).taskSwitched = s.taskSwitched := rfl
@[simp] theorem State.vmFlag_setZmm (s : State) (r : VReg) (v : VecReg) : (s.setZmm r v).vmFlag = s.vmFlag := rfl
@[simp] theorem State.trapFlag_setZmm (s : State) (r : VReg) (v : VecReg) : (s.setZmm r v).trapFlag = s.trapFlag := rfl
@[simp] theorem State.realOrVm86_setZmm (s : State) (r : VReg) (v : VecReg) : (s.setZmm r v).realOrVm86 = s.realOrVm86 := rfl
@[simp] theorem State.in64BitMode_setZmm (s : State) (r : VReg) (v : VecReg) : (s.setZmm r v).in64BitMode = s.in64BitMode := rfl
@[simp] theorem State.osxmmexcpt_setZmm (s : State) (r : VReg) (v : VecReg) : (s.setZmm r v).osxmmexcpt = s.osxmmexcpt := rfl
@[simp] theorem State.osEnabled_setZmm (s : State) (r : VReg) (v : VecReg) : (s.setZmm r v).osEnabled = s.osEnabled := rfl
@[simp] theorem State.hasRegisters_setZmm (s : State) (r : VReg) (v : VecReg) (f : Form) : (s.setZmm r v).hasRegisters f = s.hasRegisters f := rfl
@[simp] theorem State.cpl_setZmm (s : State) (r : VReg) (v : VecReg) : (s.setZmm r v).cpl = s.cpl := rfl
@[simp] theorem State.simdException_setZmm (s : State) (r : VReg) (v : VecReg) : (s.setZmm r v).simdException = s.simdException := rfl
@[simp] theorem State.laneActive_setZmm (s : State) (r : VReg) (v : VecReg) (m : Masking) (j : Nat) : (s.setZmm r v).laneActive m j = s.laneActive m j := rfl
@[simp] theorem State.activeLanes_setZmm (s : State) (r : VReg) (v : VecReg) (f : Form) : (s.setZmm r v).activeLanes f = s.activeLanes f := rfl
@[simp] theorem State.readByte_setZmm (s : State) (r : VReg) (v : VecReg) (kind : AccessKind) (la : Addr) : (s.setZmm r v).readByte kind la = s.readByte kind la := rfl
@[simp] theorem State.translate_setZmm (s : State) (r : VReg) (v : VecReg) (kind : AccessKind) (la : Addr) : (s.setZmm r v).translate kind la = s.translate kind la := rfl
@[simp] theorem State.canonical_setZmm (s : State) (r : VReg) (v : VecReg) (la : Addr) : (s.setZmm r v).canonical la = s.canonical la := rfl
@[simp] theorem State.protectedMode_setRip (s : State) (a : Addr) : (s.setRip a).protectedMode = s.protectedMode := rfl
@[simp] theorem State.taskSwitched_setRip (s : State) (a : Addr) : (s.setRip a).taskSwitched = s.taskSwitched := rfl
@[simp] theorem State.vmFlag_setRip (s : State) (a : Addr) : (s.setRip a).vmFlag = s.vmFlag := rfl
@[simp] theorem State.trapFlag_setRip (s : State) (a : Addr) : (s.setRip a).trapFlag = s.trapFlag := rfl
@[simp] theorem State.realOrVm86_setRip (s : State) (a : Addr) : (s.setRip a).realOrVm86 = s.realOrVm86 := rfl
@[simp] theorem State.in64BitMode_setRip (s : State) (a : Addr) : (s.setRip a).in64BitMode = s.in64BitMode := rfl
@[simp] theorem State.osxmmexcpt_setRip (s : State) (a : Addr) : (s.setRip a).osxmmexcpt = s.osxmmexcpt := rfl
@[simp] theorem State.osEnabled_setRip (s : State) (a : Addr) : (s.setRip a).osEnabled = s.osEnabled := rfl
@[simp] theorem State.hasRegisters_setRip (s : State) (a : Addr) (f : Form) : (s.setRip a).hasRegisters f = s.hasRegisters f := rfl
@[simp] theorem State.cpl_setRip (s : State) (a : Addr) : (s.setRip a).cpl = s.cpl := rfl
@[simp] theorem State.simdException_setRip (s : State) (a : Addr) : (s.setRip a).simdException = s.simdException := rfl
@[simp] theorem State.laneActive_setRip (s : State) (a : Addr) (m : Masking) (j : Nat) : (s.setRip a).laneActive m j = s.laneActive m j := rfl
@[simp] theorem State.activeLanes_setRip (s : State) (a : Addr) (f : Form) : (s.setRip a).activeLanes f = s.activeLanes f := rfl
@[simp] theorem State.readByte_setRip (s : State) (a : Addr) (kind : AccessKind) (la : Addr) : (s.setRip a).readByte kind la = s.readByte kind la := rfl
@[simp] theorem State.translate_setRip (s : State) (a : Addr) (kind : AccessKind) (la : Addr) : (s.setRip a).translate kind la = s.translate kind la := rfl
@[simp] theorem State.canonical_setRip (s : State) (a : Addr) (la : Addr) : (s.setRip a).canonical la = s.canonical la := rfl
@[simp] theorem State.protectedMode_setMxcsr (s : State) (v : BitVec 32) : (s.setMxcsr v).protectedMode = s.protectedMode := rfl
@[simp] theorem State.taskSwitched_setMxcsr (s : State) (v : BitVec 32) : (s.setMxcsr v).taskSwitched = s.taskSwitched := rfl
@[simp] theorem State.vmFlag_setMxcsr (s : State) (v : BitVec 32) : (s.setMxcsr v).vmFlag = s.vmFlag := rfl
@[simp] theorem State.trapFlag_setMxcsr (s : State) (v : BitVec 32) : (s.setMxcsr v).trapFlag = s.trapFlag := rfl
@[simp] theorem State.realOrVm86_setMxcsr (s : State) (v : BitVec 32) : (s.setMxcsr v).realOrVm86 = s.realOrVm86 := rfl
@[simp] theorem State.in64BitMode_setMxcsr (s : State) (v : BitVec 32) : (s.setMxcsr v).in64BitMode = s.in64BitMode := rfl
@[simp] theorem State.osxmmexcpt_setMxcsr (s : State) (v : BitVec 32) : (s.setMxcsr v).osxmmexcpt = s.osxmmexcpt := rfl
@[simp] theorem State.osEnabled_setMxcsr (s : State) (v : BitVec 32) : (s.setMxcsr v).osEnabled = s.osEnabled := rfl
@[simp] theorem State.hasRegisters_setMxcsr (s : State) (v : BitVec 32) (f : Form) : (s.setMxcsr v).hasRegisters f = s.hasRegisters f := rfl
@[simp] theorem State.cpl_setMxcsr (s : State) (v : BitVec 32) : (s.setMxcsr v).cpl = s.cpl := rfl
@[simp] theorem State.simdException_setMxcsr (s : State) (v : BitVec 32) : (s.setMxcsr v).simdException = s.simdException := rfl
@[simp] theorem State.laneActive_setMxcsr (s : State) (v : BitVec 32) (m : Masking) (j : Nat) : (s.setMxcsr v).laneActive m j = s.laneActive m j := rfl
@[simp] theorem State.activeLanes_setMxcsr (s : State) (v : BitVec 32) (f : Form) : (s.setMxcsr v).activeLanes f = s.activeLanes f := rfl
@[simp] theorem State.readByte_setMxcsr (s : State) (v : BitVec 32) (kind : AccessKind) (la : Addr) : (s.setMxcsr v).readByte kind la = s.readByte kind la := rfl
@[simp] theorem State.translate_setMxcsr (s : State) (v : BitVec 32) (kind : AccessKind) (la : Addr) : (s.setMxcsr v).translate kind la = s.translate kind la := rfl
@[simp] theorem State.canonical_setMxcsr (s : State) (v : BitVec 32) (la : Addr) : (s.setMxcsr v).canonical la = s.canonical la := rfl
@[simp] theorem State.protectedMode_setCr2 (s : State) (a : Addr) : (s.setCr2 a).protectedMode = s.protectedMode := rfl
@[simp] theorem State.taskSwitched_setCr2 (s : State) (a : Addr) : (s.setCr2 a).taskSwitched = s.taskSwitched := rfl
@[simp] theorem State.vmFlag_setCr2 (s : State) (a : Addr) : (s.setCr2 a).vmFlag = s.vmFlag := rfl
@[simp] theorem State.trapFlag_setCr2 (s : State) (a : Addr) : (s.setCr2 a).trapFlag = s.trapFlag := rfl
@[simp] theorem State.realOrVm86_setCr2 (s : State) (a : Addr) : (s.setCr2 a).realOrVm86 = s.realOrVm86 := rfl
@[simp] theorem State.in64BitMode_setCr2 (s : State) (a : Addr) : (s.setCr2 a).in64BitMode = s.in64BitMode := rfl
@[simp] theorem State.osxmmexcpt_setCr2 (s : State) (a : Addr) : (s.setCr2 a).osxmmexcpt = s.osxmmexcpt := rfl
@[simp] theorem State.osEnabled_setCr2 (s : State) (a : Addr) : (s.setCr2 a).osEnabled = s.osEnabled := rfl
@[simp] theorem State.hasRegisters_setCr2 (s : State) (a : Addr) (f : Form) : (s.setCr2 a).hasRegisters f = s.hasRegisters f := rfl
@[simp] theorem State.cpl_setCr2 (s : State) (a : Addr) : (s.setCr2 a).cpl = s.cpl := rfl
@[simp] theorem State.simdException_setCr2 (s : State) (a : Addr) : (s.setCr2 a).simdException = s.simdException := rfl
@[simp] theorem State.laneActive_setCr2 (s : State) (a : Addr) (m : Masking) (j : Nat) : (s.setCr2 a).laneActive m j = s.laneActive m j := rfl
@[simp] theorem State.activeLanes_setCr2 (s : State) (a : Addr) (f : Form) : (s.setCr2 a).activeLanes f = s.activeLanes f := rfl
@[simp] theorem State.readByte_setCr2 (s : State) (a : Addr) (kind : AccessKind) (la : Addr) : (s.setCr2 a).readByte kind la = s.readByte kind la := rfl
@[simp] theorem State.translate_setCr2 (s : State) (a : Addr) (kind : AccessKind) (la : Addr) : (s.setCr2 a).translate kind la = s.translate kind la := rfl
@[simp] theorem State.canonical_setCr2 (s : State) (a : Addr) (la : Addr) : (s.setCr2 a).canonical la = s.canonical la := rfl
@[simp] theorem State.protectedMode_setRaised (s : State) (e : Option Exception) : (s.setRaised e).protectedMode = s.protectedMode := rfl
@[simp] theorem State.taskSwitched_setRaised (s : State) (e : Option Exception) : (s.setRaised e).taskSwitched = s.taskSwitched := rfl
@[simp] theorem State.vmFlag_setRaised (s : State) (e : Option Exception) : (s.setRaised e).vmFlag = s.vmFlag := rfl
@[simp] theorem State.trapFlag_setRaised (s : State) (e : Option Exception) : (s.setRaised e).trapFlag = s.trapFlag := rfl
@[simp] theorem State.realOrVm86_setRaised (s : State) (e : Option Exception) : (s.setRaised e).realOrVm86 = s.realOrVm86 := rfl
@[simp] theorem State.in64BitMode_setRaised (s : State) (e : Option Exception) : (s.setRaised e).in64BitMode = s.in64BitMode := rfl
@[simp] theorem State.osxmmexcpt_setRaised (s : State) (e : Option Exception) : (s.setRaised e).osxmmexcpt = s.osxmmexcpt := rfl
@[simp] theorem State.osEnabled_setRaised (s : State) (e : Option Exception) : (s.setRaised e).osEnabled = s.osEnabled := rfl
@[simp] theorem State.hasRegisters_setRaised (s : State) (e : Option Exception) (f : Form) : (s.setRaised e).hasRegisters f = s.hasRegisters f := rfl
@[simp] theorem State.cpl_setRaised (s : State) (e : Option Exception) : (s.setRaised e).cpl = s.cpl := rfl
@[simp] theorem State.simdException_setRaised (s : State) (e : Option Exception) : (s.setRaised e).simdException = s.simdException := rfl
@[simp] theorem State.laneActive_setRaised (s : State) (e : Option Exception) (m : Masking) (j : Nat) : (s.setRaised e).laneActive m j = s.laneActive m j := rfl
@[simp] theorem State.activeLanes_setRaised (s : State) (e : Option Exception) (f : Form) : (s.setRaised e).activeLanes f = s.activeLanes f := rfl
@[simp] theorem State.readByte_setRaised (s : State) (e : Option Exception) (kind : AccessKind) (la : Addr) : (s.setRaised e).readByte kind la = s.readByte kind la := rfl
@[simp] theorem State.translate_setRaised (s : State) (e : Option Exception) (kind : AccessKind) (la : Addr) : (s.setRaised e).translate kind la = s.translate kind la := rfl
@[simp] theorem State.canonical_setRaised (s : State) (e : Option Exception) (la : Addr) : (s.setRaised e).canonical la = s.canonical la := rfl

/-! ### orFlags and takeException -/

@[simp] theorem State.orFlags_zmm (s : State) (a : FpFlags) : (s.orFlags a).zmm = s.zmm := rfl
@[simp] theorem State.orFlags_k (s : State) (a : FpFlags) : (s.orFlags a).k = s.k := rfl
@[simp] theorem State.orFlags_gpr (s : State) (a : FpFlags) : (s.orFlags a).gpr = s.gpr := rfl
@[simp] theorem State.orFlags_rip (s : State) (a : FpFlags) : (s.orFlags a).rip = s.rip := rfl
@[simp] theorem State.orFlags_rflags (s : State) (a : FpFlags) : (s.orFlags a).rflags = s.rflags := rfl
@[simp] theorem State.orFlags_fsBase (s : State) (a : FpFlags) : (s.orFlags a).fsBase = s.fsBase := rfl
@[simp] theorem State.orFlags_gsBase (s : State) (a : FpFlags) : (s.orFlags a).gsBase = s.gsBase := rfl
@[simp] theorem State.orFlags_csSelector (s : State) (a : FpFlags) : (s.orFlags a).csSelector = s.csSelector := rfl
@[simp] theorem State.orFlags_csBase (s : State) (a : FpFlags) : (s.orFlags a).csBase = s.csBase := rfl
@[simp] theorem State.orFlags_csL (s : State) (a : FpFlags) : (s.orFlags a).csL = s.csL := rfl
@[simp] theorem State.orFlags_cr0 (s : State) (a : FpFlags) : (s.orFlags a).cr0 = s.cr0 := rfl
@[simp] theorem State.orFlags_cr2 (s : State) (a : FpFlags) : (s.orFlags a).cr2 = s.cr2 := rfl
@[simp] theorem State.orFlags_cr4 (s : State) (a : FpFlags) : (s.orFlags a).cr4 = s.cr4 := rfl
@[simp] theorem State.orFlags_xcr0 (s : State) (a : FpFlags) : (s.orFlags a).xcr0 = s.xcr0 := rfl
@[simp] theorem State.orFlags_efer (s : State) (a : FpFlags) : (s.orFlags a).efer = s.efer := rfl
@[simp] theorem State.orFlags_mem (s : State) (a : FpFlags) : (s.orFlags a).mem = s.mem := rfl
@[simp] theorem State.orFlags_translation (s : State) (a : FpFlags) : (s.orFlags a).translation = s.translation := rfl
@[simp] theorem State.orFlags_devices (s : State) (a : FpFlags) : (s.orFlags a).devices = s.devices := rfl
@[simp] theorem State.orFlags_text (s : State) (a : FpFlags) : (s.orFlags a).text = s.text := rfl
@[simp] theorem State.orFlags_config (s : State) (a : FpFlags) : (s.orFlags a).config = s.config := rfl
@[simp] theorem State.orFlags_raised (s : State) (a : FpFlags) : (s.orFlags a).raised = s.raised := rfl
@[simp] theorem State.orFlags_mxcsr (s : State) (a : FpFlags) : (s.orFlags a).mxcsr = s.mxcsr ||| a.bits.setWidth 32 := rfl
@[simp] theorem State.takeException_zmm (s : State) (e : Exception) : (s.takeException e).zmm = s.zmm := by cases e <;> rfl
@[simp] theorem State.takeException_k (s : State) (e : Exception) : (s.takeException e).k = s.k := by cases e <;> rfl
@[simp] theorem State.takeException_mxcsr (s : State) (e : Exception) : (s.takeException e).mxcsr = s.mxcsr := by cases e <;> rfl
@[simp] theorem State.takeException_gpr (s : State) (e : Exception) : (s.takeException e).gpr = s.gpr := by cases e <;> rfl
@[simp] theorem State.takeException_rip (s : State) (e : Exception) : (s.takeException e).rip = s.rip := by cases e <;> rfl
@[simp] theorem State.takeException_rflags (s : State) (e : Exception) : (s.takeException e).rflags = s.rflags := by cases e <;> rfl
@[simp] theorem State.takeException_fsBase (s : State) (e : Exception) : (s.takeException e).fsBase = s.fsBase := by cases e <;> rfl
@[simp] theorem State.takeException_gsBase (s : State) (e : Exception) : (s.takeException e).gsBase = s.gsBase := by cases e <;> rfl
@[simp] theorem State.takeException_csSelector (s : State) (e : Exception) : (s.takeException e).csSelector = s.csSelector := by cases e <;> rfl
@[simp] theorem State.takeException_csBase (s : State) (e : Exception) : (s.takeException e).csBase = s.csBase := by cases e <;> rfl
@[simp] theorem State.takeException_csL (s : State) (e : Exception) : (s.takeException e).csL = s.csL := by cases e <;> rfl
@[simp] theorem State.takeException_cr0 (s : State) (e : Exception) : (s.takeException e).cr0 = s.cr0 := by cases e <;> rfl
@[simp] theorem State.takeException_cr4 (s : State) (e : Exception) : (s.takeException e).cr4 = s.cr4 := by cases e <;> rfl
@[simp] theorem State.takeException_xcr0 (s : State) (e : Exception) : (s.takeException e).xcr0 = s.xcr0 := by cases e <;> rfl
@[simp] theorem State.takeException_efer (s : State) (e : Exception) : (s.takeException e).efer = s.efer := by cases e <;> rfl
@[simp] theorem State.takeException_mem (s : State) (e : Exception) : (s.takeException e).mem = s.mem := by cases e <;> rfl
@[simp] theorem State.takeException_translation (s : State) (e : Exception) : (s.takeException e).translation = s.translation := by cases e <;> rfl
@[simp] theorem State.takeException_devices (s : State) (e : Exception) : (s.takeException e).devices = s.devices := by cases e <;> rfl
@[simp] theorem State.takeException_text (s : State) (e : Exception) : (s.takeException e).text = s.text := by cases e <;> rfl
@[simp] theorem State.takeException_config (s : State) (e : Exception) : (s.takeException e).config = s.config := by cases e <;> rfl
@[simp] theorem State.takeException_raised (s : State) (e : Exception) : (s.takeException e).raised = some e := by cases e <;> rfl
@[simp] theorem State.takeException_pf_cr2 (s : State) (code : BitVec 32) (la : Addr) : (s.takeException (.pf code la)).cr2 = la := rfl

/-- Taking an exception that is no page fault writes the record alone. -/
theorem State.takeException_eq (s : State) (e : Exception) (h : ∀ code la, e ≠ .pf code la) :
    s.takeException e = { s with raised := some e } := by
  cases e with
  | pf code la => exact absurd rfl (h code la)
  | _ => rfl

/-- A read of a byte depends on the translation, the devices, memory and the CPL alone. -/
theorem State.readByte_congr {s t : State} (hm : t.mem = s.mem) (ht : t.translation = s.translation)
    (hd : t.devices = s.devices) (hc : t.csSelector = s.csSelector) (kind : AccessKind) (la : Addr) :
    t.readByte kind la = s.readByte kind la := by
  simp [State.readByte, State.translate, State.isDevice, State.cpl, hm, ht, hd, hc]

end Sys2Proof.Machine
end

