-- ==== Sys2Proof/Laws/Lanes.lean ====
section
/-!
SUPPORT. Elements of vectors, and sets of flags under union.
-/

namespace Sys2Proof.Machine

open Sys2Proof

/-- A bit of a packed vector: the bit of its element, 0 above the last element. -/
theorem getLsbD_packLanes (f : Nat → Fp16) (n : Nat) (hn : n ≤ 32) (b : Nat) :
    (packLanes f n).getLsbD b = (decide (b / 16 < n) && (f (b / 16)).getLsbD (b % 16)) := by
  induction n with
  | zero => simp [packLanes]
  | succ n ih =>
    have ih := ih (by omega)
    rw [packLanes, BitVec.getLsbD_or, ih, BitVec.getLsbD_shiftLeft, BitVec.getLsbD_setWidth]
    rcases Nat.lt_trichotomy (b / 16) n with h | h | h
    · have h1 : b < 16 * n := by omega
      have h2 : b / 16 < n + 1 := by omega
      simp [h, h1, h2]
    · have h1 : ¬ b < 16 * n := by omega
      have h2 : b < 512 := by omega
      have h3 : b - 16 * n = b % 16 := by omega
      have h4 : b % 16 < 512 := by omega
      simp [h, h1, h2, h3, h4]
    · have h1 : ¬ b < 16 * n := by omega
      have h2 : ¬ b / 16 < n := by omega
      have h3 : ¬ b / 16 < n + 1 := by omega
      have h4 : 16 ≤ b - 16 * n := by omega
      simp [h1, h2, h3, BitVec.getLsbD_of_ge _ _ h4]

/-- Element j of a packed vector. -/
theorem lane_packLanes (f : Nat → Fp16) {n j : Nat} (hn : n ≤ 32) (hj : j < n) : lane (packLanes f n) j = f j := by
  apply BitVec.eq_of_getLsbD_eq
  intro i hi
  have h1 : (16 * j + i) / 16 = j := by omega
  have h2 : (16 * j + i) % 16 = i := by omega
  rw [lane, BitVec.getLsbD_extractLsb', getLsbD_packLanes f n hn, h1, h2]
  simp [hi, hj]

/-- The number of elements is at most 32. -/
theorem lanes_le (v : VecLen) : v.lanes ≤ 32 := by cases v <;> decide

/-- VL is 16 times the number of elements. -/
theorem bits_eq_lanes (v : VecLen) : v.bits = 16 * v.lanes := by cases v <;> rfl

@[simp] theorem FpFlags.union_empty (a : FpFlags) : a.union .empty = a := by
  cases a; simp [FpFlags.union, FpFlags.empty]

@[simp] theorem FpFlags.empty_union (a : FpFlags) : FpFlags.union .empty a = a := by
  cases a; simp [FpFlags.union, FpFlags.empty]

/-- The bits of a union. -/
theorem FpFlags.bits_union (a b : FpFlags) : (a.union b).bits = a.bits ||| b.bits := by
  obtain ⟨a1, a2, a3, a4, a5⟩ := a
  obtain ⟨b1, b2, b3, b4, b5⟩ := b
  revert a1 a2 a3 a4 a5 b1 b2 b3 b4 b5
  decide

/-- A set of flags is its two parts. -/
theorem FpFlags.bits_pre_post (a : FpFlags) : a.bits = a.pre.bits ||| a.post.bits := by
  obtain ⟨a1, a2, a3, a4, a5⟩ := a
  revert a1 a2 a3 a4 a5
  decide

/-- A bit of the flags that the active lanes detect together. -/
theorem State.getLsbD_detected (s : State) (f : Form) (t3 : Nat → Fp16) (b : Nat) :
    (s.detected f t3).bits.getLsbD b = true ↔
      ∃ j ∈ s.activeLanes f, (s.laneResult f t3 j).2.bits.getLsbD b = true := by
  rw [State.detected]
  induction s.activeLanes f with
  | nil =>
    have : FpFlags.empty.bits = 0#6 := rfl
    simp [this]
  | cons j l ih => simp [FpFlags.bits_union, ih]

/-- `laneActive` reads the bit that R14 and R83 name. -/
theorem State.laneActive_iff (s : State) (m : Masking) (j : Nat) : s.laneActive m j = true ↔ MaskSelects s m j := by
  cases m <;> simp [State.laneActive, MaskSelects, State.kAt]

/-- A bit of the new destination: the bit of its lane, 0 from VL up to MAXVL (R86). -/
theorem State.regBit_newDest (s : State) (f : Form) (t3 : Nat → Fp16) (b : Nat) :
    regBit (s.newDest f t3) b = (decide (b / 16 < f.vl.lanes) && (s.newLane f t3 (b / 16)).getLsbD (b % 16)) := by
  have hl := lanes_le f.vl
  simp only [regBit, State.newDest]
  split
  · exact getLsbD_packLanes _ _ hl b
  · have h : ¬ b / 16 < f.vl.lanes := by omega
    simp [h]

/-- Membership in the active lanes. -/
theorem State.mem_activeLanes (s : State) (f : Form) (j : Nat) : j ∈ s.activeLanes f ↔ Active f s j := by
  cases hm : f.mask <;> simp [State.activeLanes, State.laneActive, Active, MaskSelects, State.kAt, hm]

/-- Bit b of MXCSR after the flags are ORed in. -/
theorem State.getLsbD_orFlags (s : State) (a : FpFlags) {b : Nat} (hb : b < 32) :
    (s.orFlags a).mxcsr.getLsbD b = (s.mxcsr.getLsbD b || a.bits.getLsbD b) := by
  simp [hb]

end Sys2Proof.Machine
end

