-- ==== Sys2Proof/Laws/Memory.lean ====
section
/-!
SUPPORT. The laws of memory: a write keeps the canonical form and is read back, and leaves every other address alone; and
what the checked data reads say.
-/

namespace Sys2Proof.Machine

open Sys2Proof

/-- Every address of a written memory is the written one or an old one. -/
theorem Memory.mem_write {m : Memory} {a : Nat} {v : Byte} {c : Host.Cell} (h : c ∈ m.write a v) :
    c = (a, v) ∨ c ∈ m := by
  induction m with
  | nil => simpa [Memory.write] using h
  | cons d m ih =>
    obtain ⟨b, w⟩ := d
    rw [Memory.write] at h
    split at h
    · simpa using h
    · split at h
      · rcases List.mem_cons.1 h with h | h
        · exact .inl h
        · exact .inr (List.mem_cons_of_mem _ h)
      · rcases List.mem_cons.1 h with h | h
        · exact .inr (h ▸ List.mem_cons_self)
        · exact (ih h).imp id (List.mem_cons_of_mem _)

/-- A write keeps the canonical form. -/
theorem Memory.wf_write {m : Memory} (hm : m.wf) (a : Nat) (v : Byte) : (m.write a v).wf := by
  induction m with
  | nil => simp [Memory.write, Memory.wf]
  | cons d m ih =>
    obtain ⟨b, w⟩ := d
    obtain ⟨hb, htail⟩ := List.pairwise_cons.1 hm
    rw [Memory.write]
    split
    · next hlt =>
      refine List.pairwise_cons.2 ⟨fun c hc => ?_, hm⟩
      rcases List.mem_cons.1 hc with rfl | hc
      · exact hlt
      · exact hlt.trans (hb c hc)
    · split
      · next heq => exact List.pairwise_cons.2 ⟨fun c hc => heq ▸ hb c hc, htail⟩
      · next hlt hne =>
        refine List.pairwise_cons.2 ⟨fun c hc => ?_, ih htail⟩
        rcases Memory.mem_write hc with rfl | hc
        · simp only; omega
        · exact hb c hc

/-- The written byte is read back. -/
theorem Memory.read_write_self (m : Memory) (pa : Addr) (v : Byte) : (m.write pa.toNat v).read pa = some v := by
  induction m with
  | nil => simp [Memory.write, Memory.read]
  | cons d m ih =>
    obtain ⟨b, w⟩ := d
    rw [Memory.write]
    split
    · simp [Memory.read]
    · split
      · simp [Memory.read]
      · next hne =>
        have : (pa.toNat == b) = false := by simpa using hne
        simpa [Memory.read, List.lookup, this] using ih

/-- Every other address reads as before. -/
theorem Memory.read_write_other (m : Memory) {pa : Addr} {a : Nat} (h : pa.toNat ≠ a) (v : Byte) :
    (m.write a v).read pa = m.read pa := by
  have hf : (pa.toNat == a) = false := by simpa using h
  induction m with
  | nil => simp [Memory.write, Memory.read, List.lookup, hf]
  | cons d m ih =>
    obtain ⟨b, w⟩ := d
    rw [Memory.write]
    split
    · simp [Memory.read, List.lookup, hf]
    · split
      · next heq => simp [Memory.read, List.lookup, hf, ← heq]
      · simp only [Memory.read, List.lookup] at ih ⊢
        rw [ih]

/-- Placing bytes keeps memory's canonical form. -/
theorem State.placeBytes_wf (s : State) (bs : List Byte) (la : Addr) (h : s.mem.wf) : (s.placeBytes bs la).mem.wf := by
  induction bs generalizing s la with
  | nil => exact h
  | cons b bs ih =>
    rw [State.placeBytes]
    split
    · exact ih _ _ (Memory.wf_write h _ _)
    · exact ih _ _ h

/-- `lowestFault` answers none exactly when no byte page-faults. -/
theorem State.lowestFault_eq_none (s : State) (l : List Addr) :
    s.lowestFault l = none ↔ ∀ a ∈ l, ∃ pa, s.translate .read a = .phys pa := by
  induction l with
  | nil => simp [State.lowestFault]
  | cons a l ih =>
    rw [State.lowestFault]
    cases ht : s.translate .read a with
    | phys pa => simp [ih, ht]
    | pageFault code =>
      cases hl : s.lowestFault l with
      | none => simp [ht]
      | some p =>
        obtain ⟨la', code'⟩ := p
        simp only
        split <;> simp [ht]

/-- The address `lowestFault` answers is one of the list, and it page-faults with that code. -/
theorem State.lowestFault_mem (s : State) (l : List Addr) {la : Addr} {code : BitVec 32}
    (h : s.lowestFault l = some (la, code)) : la ∈ l ∧ s.translate .read la = .pageFault code := by
  induction l with
  | nil => simp [State.lowestFault] at h
  | cons a l ih =>
    rw [State.lowestFault] at h
    cases ht : s.translate .read a with
    | phys pa =>
      rw [ht] at h
      exact (ih h).imp (List.mem_cons_of_mem _) id
    | pageFault c =>
      rw [ht] at h
      cases hl : s.lowestFault l with
      | none =>
        rw [hl] at h
        simp only [Option.some.injEq, Prod.mk.injEq] at h
        obtain ⟨rfl, rfl⟩ := h
        exact ⟨List.mem_cons_self, ht⟩
      | some p =>
        rw [hl] at h
        obtain ⟨a', c'⟩ := p
        simp only at h
        split at h <;> simp only [Option.some.injEq, Prod.mk.injEq] at h <;> obtain ⟨rfl, rfl⟩ := h
        · exact (ih hl).imp (List.mem_cons_of_mem _) id
        · exact ⟨List.mem_cons_self, ht⟩

/-- The check of the needed bytes answers `ok` exactly when each of them can be read. -/
theorem State.loadStatus_eq_ok (s : State) (l : List Addr) :
    s.loadStatus l = .ok ↔ ∀ a ∈ l, ∃ v, s.readByte .read a = .byte v := by
  have hpf : ∀ a, (∃ pa, s.translate .read a = .phys pa) ↔ ∀ code, s.readByte .read a ≠ .pageFault code := by
    intro a
    cases ht : s.translate .read a with
    | phys pa =>
      simp only [Translated.phys.injEq, exists_eq', State.readByte, ht, ne_eq, true_iff]
      intro code
      split
      · simp
      · split <;> simp
    | pageFault c => simp [State.readByte, ht]
  rw [State.loadStatus]
  cases hl : s.lowestFault l with
  | some p =>
    obtain ⟨la, code⟩ := p
    obtain ⟨hmem, ht⟩ := s.lowestFault_mem l hl
    simp only [reduceCtorEq, false_iff]
    intro h
    obtain ⟨v, hv⟩ := h la hmem
    simp [State.readByte, ht] at hv
  | none =>
    have hno := (s.lowestFault_eq_none l).1 hl
    simp only
    constructor
    · intro h a ha
      split at h
      · cases h
      · split at h
        · cases h
        · next hd hab =>
          simp only [List.any_eq_true, beq_iff_eq, not_exists, not_and] at hd hab
          have := (hpf a).1 (hno a ha)
          cases hb : s.readByte .read a with
          | byte v => exact ⟨v, rfl⟩
          | pageFault c => exact absurd hb (this c)
          | device => exact absurd hb (hd a ha)
          | absent => exact absurd hb (hab a ha)
    · intro h
      have hd : ¬ (l.any fun la => s.readByte .read la == .device) = true := by
        simp only [List.any_eq_true, beq_iff_eq, not_exists, not_and]
        intro a ha hb
        obtain ⟨v, hv⟩ := h a ha
        simp [hv] at hb
      have hab : ¬ (l.any fun la => s.readByte .read la == .absent) = true := by
        simp only [List.any_eq_true, beq_iff_eq, not_exists, not_and]
        intro a ha hb
        obtain ⟨v, hv⟩ := h a ha
        simp [hv] at hb
      simp [hd, hab]

end Sys2Proof.Machine
end

