-- ==== Sys2Proof/Laws/Exec.lean ====
section
/-!
SUPPORT. What an instruction can do, said once: `exec` is `execPacked` of the instruction's form, and the cases of a next
state.
-/

namespace Sys2Proof.Machine

open Sys2Proof

/-- Every meaning is `ExecPacked` of the instruction's form (R90). -/
theorem exec_eq (i : Instr) (s : State) : exec i s = execPacked i.form s := by cases i <;> rfl

/-- How an instruction can reach a next state with third-source elements `t3`: it completes, or a SIMD exception is
raised by the pre- or by the post-computation flags (R88). -/
inductive LanesNext (f : Form) (t3 : Nat → Fp16) (s t : State) : Prop where
  | suppressed (er : f.er.isSome = true) (h : t = s.complete f t3 .empty)
  | raisedPre (er : f.er = none) (u : (s.detected f t3).pre.unmasked s.mxcsrMasks = true)
      (h : t = (s.orFlags (s.detected f t3).pre).takeException s.simdException)
  | raisedPost (er : f.er = none) (n : (s.detected f t3).pre.unmasked s.mxcsrMasks = false)
      (u : (s.detected f t3).post.unmasked s.mxcsrMasks = true)
      (h : t = (s.orFlags (s.detected f t3)).takeException s.simdException)
  | completed (er : f.er = none) (n : (s.detected f t3).pre.unmasked s.mxcsrMasks = false)
      (m : (s.detected f t3).post.unmasked s.mxcsrMasks = false) (h : t = s.complete f t3 (s.detected f t3))

/-- `execLanes` always answers a next state, and these are the cases. -/
theorem execLanes_cases {f : Form} {t3 : Nat → Fp16} {s t : State} (h : execLanes f t3 s = .next t) :
    LanesNext f t3 s t := by
  simp only [execLanes, raiseException] at h
  split at h
  · next her => exact .suppressed her (by simpa using h.symm)
  · next her =>
    have her : f.er = none := by simpa using her
    split at h
    · next hu => exact .raisedPre her hu (by simpa using h.symm)
    · next hn =>
      have hn : (s.detected f t3).pre.unmasked s.mxcsrMasks = false := by simpa using hn
      split at h
      · next hu => exact .raisedPost her hn hu (by simpa using h.symm)
      · next hm => exact .completed her hn (by simpa using hm) (by simpa using h.symm)

/-- `execLanes` never stops. -/
theorem execLanes_next (f : Form) (t3 : Nat → Fp16) (s : State) : ∃ t, execLanes f t3 s = .next t := by
  simp only [execLanes, raiseException]
  split
  · exact ⟨_, rfl⟩
  · split
    · exact ⟨_, rfl⟩
    · split <;> exact ⟨_, rfl⟩

/-- How `execPacked` can reach a next state (R139). -/
inductive PackedNext (f : Form) (s t : State) : Prop where
  | ud (c : s.realOrVm86 = true ∨ s.in64BitMode = true ∧ (s.featureMissing f || !s.osEnabled) = true)
      (h : t = s.takeException .ud)
  | nm (c : s.taskSwitched = true) (h : t = s.takeException .nm)
  | address (bcst : Bool) (m : MemOperand) (src : f.src3 = .mem bcst m)
      (c : s.operandCanonical f bcst (s.linearAddress f bcst m) = false)
      (h : t = s.takeException (if usesStackSegment f m then .ss else .gp))
  | pageFault (bcst : Bool) (m : MemOperand) (src : f.src3 = .mem bcst m) (la : Addr) (code : BitVec 32)
      (c : la ∈ s.neededBytes f bcst (s.linearAddress f bcst m) ∧ s.translate .read la = .pageFault code)
      (h : t = s.takeException (.pf code la))
  | lanes (enabled : s.in64BitMode = true ∧ s.featureMissing f = false ∧ s.osEnabled = true ∧ s.taskSwitched = false ∧
      s.hasRegisters f = true) (readable : OperandReadable f s) (h : LanesNext f (thirdElement f s) s t)

/-- The cases of a next state of `execPacked`. -/
theorem execPacked_cases {f : Form} {s t : State} (h : execPacked f s = .next t) : PackedNext f s t := by
  simp only [execPacked, raiseException] at h
  split at h
  · next c => exact .ud (.inl c) (by simpa using h.symm)
  · split at h
    · cases h
    · next hm =>
      have hm : s.in64BitMode = true := by simpa using hm
      split at h
      · next c => exact .ud (.inr ⟨hm, c⟩) (by simpa using h.symm)
      · next c =>
        have c : s.featureMissing f = false ∧ s.osEnabled = true := by simpa using c
        split at h
        · next c => exact .nm c (by simpa using h.symm)
        · next hts =>
          split at h
          · cases h
          · next hreg =>
            have hen : s.in64BitMode = true ∧ s.featureMissing f = false ∧ s.osEnabled = true ∧ s.taskSwitched = false ∧
                s.hasRegisters f = true :=
              ⟨hm, c.1, c.2, by simpa using hts, by simpa using hreg⟩
            cases hsrc : f.src3 with
            | reg r =>
              rw [hsrc] at h
              refine .lanes hen (by simp [OperandReadable, hsrc]) ?_
              have : thirdElement f s = fun j => lane (s.zmmAt r) j := by funext j; simp [thirdElement, hsrc]
              rw [this]
              exact execLanes_cases h
            | mem bcst m =>
              rw [hsrc] at h
              simp only [execMemory, raiseException] at h
              split at h
              · next c => exact .address bcst m hsrc (by simpa using c) (by simpa using h.symm)
              · next hcan =>
                have hcan : s.operandCanonical f bcst (s.linearAddress f bcst m) = true := by simpa using hcan
                split at h
                · next la code hl =>
                  refine .pageFault bcst m hsrc la code ?_ (by simpa using h.symm)
                  rw [State.loadStatus] at hl
                  split at hl
                  · next la' code' hf =>
                    obtain ⟨rfl, rfl⟩ : la' = la ∧ code' = code := by simpa using hl
                    exact s.lowestFault_mem _ hf
                  · split at hl
                    · cases hl
                    · split at hl <;> cases hl
                · cases h
                · cases h
                · next hl =>
                  refine .lanes hen ?_ ?_
                  · simp only [OperandReadable, hsrc]
                    exact ⟨hcan, (s.loadStatus_eq_ok _).1 hl⟩
                  · have : thirdElement f s =
                        fun j => s.element (elementAddress bcst (s.linearAddress f bcst m) j) := by
                      funext j; simp [thirdElement, hsrc]
                    rw [this]
                    exact execLanes_cases h

/-- When the machine is enabled and the operand can be read, only the lanes decide. -/
theorem execPacked_enabled {f : Form} {s : State} (he : SimdEnabled f s) (hr : OperandReadable f s) :
    execPacked f s = execLanes f (thirdElement f s) s := by
  obtain ⟨hpe, hvm, hm, hts, hos, hf, hfp, hvl, hreg⟩ := he
  have h1 : s.realOrVm86 = false := by simp [State.realOrVm86, hpe, hvm]
  have h2 : s.featureMissing f = false := by
    rcases hvl with h | h <;> simp [State.featureMissing, hf, hfp, h]
  simp only [execPacked, h1, hm, h2, hos, hts, hreg]
  cases hsrc : f.src3 with
  | reg r =>
    have : thirdElement f s = fun j => lane (s.zmmAt r) j := by funext j; simp [thirdElement, hsrc]
    simp [this]
  | mem bcst m =>
    simp only [OperandReadable, hsrc] at hr
    have : thirdElement f s = fun j => s.element (elementAddress bcst (s.linearAddress f bcst m) j) := by
      funext j; simp [thirdElement, hsrc]
    simp [this, execMemory, hr.1, (s.loadStatus_eq_ok _).2 hr.2]

end Sys2Proof.Machine
end

