-- ==== Sys2Proof/Laws/Fetch.lean ====
section
/-!
SUPPORT. A fetch stops ten bytes after the first byte that is no prefix: the decoder looks no further (30_encoding.md R66).
-/

namespace Sys2Proof.Machine

open Sys2Proof

/-- The part of a byte string that a fetch reads: the prefixes, the first other byte, and ten more. -/
def window : List Byte → List Byte
  | [] => []
  | b :: bs => b :: (if isPrefixByte b then window bs else bs.take 10)

theorem scanPrefixes_window (bs : List Byte) :
    scanPrefixes (window bs) =
      { pfx := (scanPrefixes bs).pfx, bad := (scanPrefixes bs).bad, rest := (scanPrefixes bs).rest.take 11 } := by
  induction bs with
  | nil => rfl
  | cons b bs ih =>
    cases hp : prefixOf b with
    | some p => simp [window, isPrefixByte, scanPrefixes, hp, ih]
    | none =>
      cases hb : badPrefix b with
      | true => simp [window, isPrefixByte, scanPrefixes, hp, hb, ih]
      | false => simp [window, isPrefixByte, scanPrefixes, hp, hb]

theorem readDisp_take (mod : BitVec 2) (bs : List Byte) (n : Nat) (hn : 4 ≤ n) :
    readDisp mod (bs.take n) = readDisp mod bs := by
  obtain ⟨n, rfl⟩ := Nat.exists_eq_add_of_le' hn
  match bs with
  | [] => simp
  | [_] => simp [readDisp]
  | [_, _] => simp [readDisp]
  | [_, _, _] => simp [readDisp]
  | _ :: _ :: _ :: _ :: _ => simp [readDisp]

theorem readDisp32_take (bs : List Byte) (n : Nat) (hn : 4 ≤ n) : readDisp32 (bs.take n) = readDisp32 bs := by
  obtain ⟨n, rfl⟩ := Nat.exists_eq_add_of_le' hn
  match bs with
  | [] => simp
  | [_] => simp [readDisp32]
  | [_, _] => simp [readDisp32]
  | [_, _, _] => simp [readDisp32]
  | _ :: _ :: _ :: _ :: _ => simp [readDisp32]

theorem readMem_take (x b : BitVec 1) (mod : BitVec 2) (rm : BitVec 3) (bs : List Byte) (n : Nat) (hn : 5 ≤ n) :
    readMem x b mod rm (bs.take n) = readMem x b mod rm bs := by
  obtain ⟨n, rfl⟩ := Nat.exists_eq_add_of_le' hn
  have h4 : 4 ≤ n + 4 := by omega
  have h5 : 4 ≤ n + 5 := by omega
  cases bs with
  | nil => simp
  | cons sib rest =>
    have hs : ∀ m : BitVec 2, readSib x b m sib (rest.take (n + 4)) = readSib x b m sib rest := fun m => by
      simp only [readSib, readDisp_take _ _ _ h4, readDisp32_take _ _ h4]
    simp only [readMem, readDisp_take _ _ _ h5, readDisp32_take _ _ h5]
    simp only [List.take_succ_cons, hs]

theorem decodeEvex_take (p : List LegacyPrefix) (bad : Bool) (bs : List Byte) :
    decodeEvex { pfx := p, bad := bad, rest := bs.take 11 } = decodeEvex { pfx := p, bad := bad, rest := bs } := by
  match bs with
  | [] => rfl
  | [_] => rfl
  | [_, _] => rfl
  | [_, _, _] => rfl
  | [_, _, _, _] => rfl
  | [_, _, _, _, _] => rfl
  | _ :: _ :: _ :: _ :: _ :: _ :: rest =>
    simp only [List.take_succ_cons, decodeEvex, decodeAfterEscape, decodeFamily, decodeMem,
      readMem_take _ _ _ _ rest 5 (Nat.le_refl 5)]

/-- The decoder needs no byte beyond the window that a fetch reads. -/
theorem decode_window (bs : List Byte) : decode (window bs) = decode bs := by
  simp only [decode, scanPrefixes_window, decodeEvex_take]

/-- The prefix loop ends at the first byte that is no prefix. -/
theorem scanPrefixes_append (pre : List Byte) (b : Byte) (bs : List Byte) (h : ∀ p ∈ pre, isPrefixByte p = true)
    (hb : isPrefixByte b = false) : (scanPrefixes (pre ++ b :: bs)).rest = b :: bs := by
  simp only [isPrefixByte, Bool.or_eq_false_iff, Option.isSome_eq_false_iff, Option.isNone_iff_eq_none] at hb
  induction pre with
  | nil => simp [scanPrefixes, hb]
  | cons p pre ih =>
    have ih := ih fun q hq => h q (List.mem_cons_of_mem _ hq)
    have hp := h p List.mem_cons_self
    cases ho : prefixOf p with
    | some o => simp [scanPrefixes, ho, ih]
    | none =>
      have hq : badPrefix p = true := by simpa [isPrefixByte, ho] using hp
      simp [scanPrefixes, ho, hq, ih]

/-- The length of R63: prefixes, six bytes, SIB and displacement. -/
theorem shapeLength_eq (pre : List Byte) (p0 p1 p2 op modrm : Byte) (rest : List Byte)
    (h : ∀ p ∈ pre, isPrefixByte p = true) :
    shapeLength (pre ++ 0x62#8 :: p0 :: p1 :: p2 :: op :: modrm :: rest) =
      pre.length + 6 + extraLength modrm rest := by
  have hs := scanPrefixes_append pre 0x62#8 (p0 :: p1 :: p2 :: op :: modrm :: rest) h (by decide)
  simp only [shapeLength, hs, List.length_append, Nat.add_sub_cancel]

/-- The bytes of `bs` can be fetched from `la` on, and then no more. -/
def State.FetchableFrom (s : State) (la : Addr) : List Byte → Prop
  | [] => ∃ stop, s.fetchByte la = .error stop
  | b :: bs => s.fetchByte la = .ok b ∧ State.FetchableFrom s (la + 1) bs

theorem fetchBytes_fst (s : State) (n : Nat) (la : Addr) (bs : List Byte) (h : s.FetchableFrom la bs) :
    (s.fetchBytes n la).1 = bs.take n := by
  induction n generalizing la bs with
  | zero => simp [State.fetchBytes]
  | succ n ih =>
    cases bs with
    | nil => obtain ⟨stop, h⟩ := h; simp [State.fetchBytes, h]
    | cons b bs => simp only [State.fetchBytes, h.1, ih _ _ h.2, List.take_succ_cons]

/-- A fetch reads the window of the bytes that can be fetched. -/
theorem fetchFrom_fst (s : State) (n : Nat) (la : Addr) (bs : List Byte) (h : s.FetchableFrom la bs)
    (hn : bs.length < n) : (s.fetchFrom n la).1 = window bs := by
  induction n generalizing la bs with
  | zero => omega
  | succ n ih =>
    cases bs with
    | nil => obtain ⟨stop, h⟩ := h; simp [State.fetchFrom, h, window]
    | cons b bs =>
      simp only [List.length_cons] at hn
      simp only [State.fetchFrom, h.1, window]
      split
      · simp only [ih _ _ h.2 (by omega)]
      · simp only [fetchBytes_fst s 10 _ _ h.2]

end Sys2Proof.Machine
end

