-- ==== Sys2Proof/Laws/PerInstr.lean ====
section
/-!
SUPPORT. Statements about every instruction as syntax, one lemma per constructor of `Instr`.
-/

namespace Sys2Proof.Laws

open Sys2Proof

/-- The bytes of a form are as many as `ilen` says (R63). -/
theorem length_extraBytes (x : Src3) : x.extraBytes.length = x.extraLen := by
  cases x with
  | reg r => rfl
  | mem b m =>
    cases m with
    | baseDisp x b d => cases d <;> rfl
    | ripRel x b d => rfl
    | sib b i sc d => cases d <;> rfl
    | sibNoBase b i sc d => rfl

/-- An instruction is encoded in `ilen` bytes (R63). -/
def EncodeLength.Statement (i : Instr) : Prop := (encode i).length = i.ilen

theorem EncodeLength.of_form (i : Instr) : EncodeLength.Statement i := by
  simp only [EncodeLength.Statement, encode, Instr.ilen, Form.ilen, Form.head, length_extraBytes, List.length_append,
    List.length_map, List.length_cons, List.length_nil]

theorem EncodeLength.vfmadd132phEr (o : ErForm) : EncodeLength.Statement (.vfmadd132phEr o) := EncodeLength.of_form _
theorem EncodeLength.vfmadd132ph128 (o : PlainForm) : EncodeLength.Statement (.vfmadd132ph128 o) := EncodeLength.of_form _
theorem EncodeLength.vfmadd132ph256 (o : PlainForm) : EncodeLength.Statement (.vfmadd132ph256 o) := EncodeLength.of_form _
theorem EncodeLength.vfmadd132ph512 (o : PlainForm) : EncodeLength.Statement (.vfmadd132ph512 o) := EncodeLength.of_form _
theorem EncodeLength.vfmadd213phEr (o : ErForm) : EncodeLength.Statement (.vfmadd213phEr o) := EncodeLength.of_form _
theorem EncodeLength.vfmadd213ph128 (o : PlainForm) : EncodeLength.Statement (.vfmadd213ph128 o) := EncodeLength.of_form _
theorem EncodeLength.vfmadd213ph256 (o : PlainForm) : EncodeLength.Statement (.vfmadd213ph256 o) := EncodeLength.of_form _
theorem EncodeLength.vfmadd213ph512 (o : PlainForm) : EncodeLength.Statement (.vfmadd213ph512 o) := EncodeLength.of_form _
theorem EncodeLength.vfmadd231phEr (o : ErForm) : EncodeLength.Statement (.vfmadd231phEr o) := EncodeLength.of_form _
theorem EncodeLength.vfmadd231ph128 (o : PlainForm) : EncodeLength.Statement (.vfmadd231ph128 o) := EncodeLength.of_form _
theorem EncodeLength.vfmadd231ph256 (o : PlainForm) : EncodeLength.Statement (.vfmadd231ph256 o) := EncodeLength.of_form _
theorem EncodeLength.vfmadd231ph512 (o : PlainForm) : EncodeLength.Statement (.vfmadd231ph512 o) := EncodeLength.of_form _
theorem EncodeLength.vfnmadd132phEr (o : ErForm) : EncodeLength.Statement (.vfnmadd132phEr o) := EncodeLength.of_form _
theorem EncodeLength.vfnmadd132ph128 (o : PlainForm) : EncodeLength.Statement (.vfnmadd132ph128 o) := EncodeLength.of_form _
theorem EncodeLength.vfnmadd132ph256 (o : PlainForm) : EncodeLength.Statement (.vfnmadd132ph256 o) := EncodeLength.of_form _
theorem EncodeLength.vfnmadd132ph512 (o : PlainForm) : EncodeLength.Statement (.vfnmadd132ph512 o) := EncodeLength.of_form _
theorem EncodeLength.vfnmadd213phEr (o : ErForm) : EncodeLength.Statement (.vfnmadd213phEr o) := EncodeLength.of_form _
theorem EncodeLength.vfnmadd213ph128 (o : PlainForm) : EncodeLength.Statement (.vfnmadd213ph128 o) := EncodeLength.of_form _
theorem EncodeLength.vfnmadd213ph256 (o : PlainForm) : EncodeLength.Statement (.vfnmadd213ph256 o) := EncodeLength.of_form _
theorem EncodeLength.vfnmadd213ph512 (o : PlainForm) : EncodeLength.Statement (.vfnmadd213ph512 o) := EncodeLength.of_form _
theorem EncodeLength.vfnmadd231phEr (o : ErForm) : EncodeLength.Statement (.vfnmadd231phEr o) := EncodeLength.of_form _
theorem EncodeLength.vfnmadd231ph128 (o : PlainForm) : EncodeLength.Statement (.vfnmadd231ph128 o) := EncodeLength.of_form _
theorem EncodeLength.vfnmadd231ph256 (o : PlainForm) : EncodeLength.Statement (.vfnmadd231ph256 o) := EncodeLength.of_form _
theorem EncodeLength.vfnmadd231ph512 (o : PlainForm) : EncodeLength.Statement (.vfnmadd231ph512 o) := EncodeLength.of_form _

end Sys2Proof.Laws
end

