-- ==== Sys2Proof/Machine/Asm.lean ====
section
/-!
DEFINITION. Assembler notation: an instruction in Intel syntax (30_encoding.md R67, R68). The machine does not use it.
-/

namespace Sys2Proof.Machine

open Sys2Proof

/-- The text in braces; the brace characters are written by number. -/
def inBraces (t : String) : String := (String.singleton (Char.ofNat 123) ++ t) ++ String.singleton (Char.ofNat 125)

/-- A number as the spec writes one: hexadecimal with H. -/
def hexText (n : Nat) : String := String.ofList ((Nat.toDigits 16 n).map Char.toUpper) ++ "H"

/-- The mnemonic (R1). -/
def mnemonicText (f : Form) : String :=
  (if f.neg then "vfnmadd" else "vfmadd") ++
    (match f.digits with
      | .d132 => "132ph"
      | .d213 => "213ph"
      | .d231 => "231ph")

/-- xmm, ymm or zmm with the register's number (R67). -/
def vregText (vl : VecLen) (r : VReg) : String :=
  (match vl with
    | .v128 => "xmm"
    | .v256 => "ymm"
    | .v512 => "zmm") ++ toString r.toNat

/-- The names of the general registers, 64-bit or (address-size prefix) 32-bit (R18). -/
def gprText (a32 : Bool) (r : Gpr) : String :=
  let low := ["ax", "cx", "dx", "bx", "sp", "bp", "si", "di"]
  if r.toNat < 8 then (if a32 then "e" else "r") ++ low.getD r.toNat ""
  else "r" ++ toString r.toNat ++ (if a32 then "d" else "")

/-- `+n` or `-n`. -/
def signedText (v : Int) : String := if v < 0 then "-" ++ hexText v.natAbs else "+" ++ hexText v.natAbs

/-- The displacement as the assembler writes it, unscaled (R37). -/
def dispText (n : Nat) : Disp → String
  | .none => ""
  | .d8 d => signedText (d.toInt * n)
  | .d32 d => signedText d.toInt

/-- index*scale; nothing for index number 4 (R36). -/
def indexText (a32 : Bool) (index : Gpr) (scale : BitVec 2) : String :=
  if index = 4#4 then "" else "+" ++ gprText a32 index ++ "*" ++ toString (2 ^ scale.toNat)

/-- A text without its leading plus sign. -/
def withoutPlus (t : String) : String :=
  match t.toList with
  | '+' :: cs => String.ofList cs
  | _ => t

/-- The address between the brackets. -/
def addressText (a32 : Bool) (n : Nat) : MemOperand → String
  | .baseDisp _ base disp => gprText a32 base ++ dispText n disp
  | .ripRel _ _ disp => (if a32 then "eip" else "rip") ++ signedText disp.toInt
  | .sib base index scale disp => gprText a32 base ++ indexText a32 index scale ++ dispText n disp
  | .sibNoBase _ index scale disp => withoutPlus (indexText a32 index scale ++ signedText disp.toInt)

/-- The segment override that changes the address (R38). -/
def segText (f : Form) : String :=
  match segOverride f.pfx with
  | some .fs => "fs:"
  | some .gs => "gs:"
  | some .ss => "ss:"
  | _ => ""

/-- The size of a memory operand (R67). -/
def sizeText (vl : VecLen) (bcst : Bool) : String :=
  if bcst then "word ptr "
  else match vl with
    | .v128 => "xmmword ptr "
    | .v256 => "ymmword ptr "
    | .v512 => "zmmword ptr "

/-- Operand 3; a broadcast carries its decoration 1to8, 1to16 or 1to32 (R68). -/
def src3Text (f : Form) : String :=
  match f.src3 with
  | .reg r => vregText f.vl r
  | .mem bcst m =>
    sizeText f.vl bcst ++ segText f ++ "[" ++ addressText (hasAddr32 f.pfx) (dispScale f.vl bcst) m ++ "]" ++
      (if bcst then inBraces ("1to" ++ toString f.vl.lanes) else "")

/-- The mask decorations of the destination (R67). -/
def maskText : Masking → String
  | .none => ""
  | .merge k => inBraces ("k" ++ toString k.toNat)
  | .zero k => inBraces ("k" ++ toString k.toNat) ++ inBraces "z"

/-- The embedded-rounding operand (R68). -/
def roundText : RoundMode → String
  | .rn => inBraces "rn-sae"
  | .rd => inBraces "rd-sae"
  | .ru => inBraces "ru-sae"
  | .rz => inBraces "rz-sae"

/-- An instruction in Intel syntax (R67, R68), destination first. -/
def intelText (i : Instr) : String :=
  let f := i.form
  mnemonicText f ++ " " ++ vregText f.vl f.dest ++ maskText f.mask ++ ", " ++ vregText f.vl f.src2 ++ ", " ++ src3Text f ++
    (match f.er with
      | some rc => ", " ++ roundText rc
      | none => "")

end Sys2Proof.Machine
end

