-- ==== Sys2Proof/Tests/Slice0.lean ====
section
/-!
SUPPORT. Tests of one step, and a witness for every statement with hypotheses. Expected values come from
95_test_vectors.md or from the encodings of 30_encoding.md, named at each test.
-/

namespace Sys2Proof.Tests

/- One theorem after another: the many small kernel evaluations then need one thread only. -/
set_option Elab.async false

open Sys2Proof
open Sys2Proof.Machine

/-! ### Small states -/

/-- A vector whose first lanes are listed and whose other lanes hold `fill`. -/
def vec (l : List Nat) (fill : Nat) : Zmm := packLanes (fun j => BitVec.ofNat 16 (l.getD j fill)) 32

/-- Bytes written to memory. -/
def put : Memory → Nat → List Nat → Memory
  | m, _, [] => m
  | m, a, b :: bs => put (m.write a (BitVec.ofNat 8 b)) (a + 1) bs

/-- The launch state of 95_test_vectors.md section 7: 64-bit mode, CPL 3, everything enabled, the code at 401000H. -/
def launch (mx : Nat) (code : List Nat) : State :=
  { State.reset with
    rip := 0x401000, csL := true, efer := 0x400, cr0 := 1, cr4 := 0x40400, xcr0 := 0xE7, csSelector := 3
    mxcsr := BitVec.ofNat 32 mx, text := ⟨0x401000, code.length⟩, mem := put [] 0x401000 code }

/-- The same with the code at another address. -/
def launchAt (a : Nat) (code : List Nat) : State :=
  { launch 0x1F80 [] with
    rip := BitVec.ofNat 64 a, text := ⟨BitVec.ofNat 64 a, code.length⟩, mem := put [] a code }

/-- The state with a general register set. -/
def withGpr (r : Nat) (v : Nat) (s : State) : State := { s with gpr := s.gpr.set! r (BitVec.ofNat 64 v) }

/-- The state with an opmask register set. -/
def withK (r : Nat) (v : Nat) (s : State) : State := { s with k := s.k.set! r (BitVec.ofNat 64 v) }

/-- The state with bytes written to memory. -/
def withMem (a : Nat) (bs : List Nat) (s : State) : State := { s with mem := put s.mem a bs }

/-- The state with zmm1, zmm2 and zmm3 set. -/
def with123 (s : State) (a b c : Zmm) : State := ((s.setZmm 1 ⟨a, 0⟩).setZmm 2 ⟨b, 0⟩).setZmm 3 ⟨c, 0⟩

/-- The operands of V1. -/
def v1 (mx p2 op : Nat) : State :=
  with123 (launch mx [0x62, 0xF6, 0x6D, p2, op, 0xCB])
    (vec [0x3C00, 0x4000, 0x4200, 0x4400, 0xBC00, 0x3800, 0x5640, 0x8000] 0x7E00)
    (vec [0x4000, 0x4000, 0xC000, 0x3800, 0x4000, 0x4400, 0x5640, 0] 0)
    (vec [0x4200, 0x3C00, 0x3C00, 0x4000, 0x4200, 0x4400, 0x5640, 0x8000] 0)

/-- The operands of the E rows: xmm1 listed then 3C00H, xmm2 all `b`, xmm3 all `c`; VFMADD132PH with P2 = `p2`. -/
def eRow (mx p2 : Nat) (a : List Nat) (b c : Nat) : State :=
  with123 (launch mx [0x62, 0xF6, 0x6D, p2, 0x98, 0xCB]) (vec a 0x3C00) (vec [] b) (vec [] c)

/-- M2: xmmword ptr [rbx] with rbx = 1FF8H; the page at 2000H does not translate, code 4. -/
def pageEdge (mx kv : Nat) : State :=
  let s := with123 (launch mx [0x62, 0xF6, 0x6D, 0x09, 0x98, 0x0B]) (vec (List.replicate 8 0x4000) 0x1111)
    (vec [] 0x3C00) 0
  { withMem 0x1FF8 [0, 0x3C, 0, 0x40, 0, 0x42, 0, 0x44] (withGpr 3 0x1FF8 (withK 1 kv s)) with
    translation := [⟨0x2000, 0x2FFF, none, none, .pageFault 4⟩] }

/-- M3: an operand at rbx or rbp. -/
def atBase (code : List Nat) (base : Nat) : State := withGpr 5 base (withGpr 3 base (launch 0x1F80 code))

/-- RIP, MXCSR, whether an exception was raised, and the lanes of a register. -/
def seen (o : Result) (r : VReg) : List Nat :=
  match o with
  | .next t => [t.rip.toNat, t.mxcsr.toNat, if t.raised = none then 0 else 1] ++
      (List.range 32).map fun j => (lane (t.zmmAt r) j).toNat
  | _ => []

/-- A six-byte instruction at 401000H has completed: MXCSR, the first lanes, and `n` lanes holding `fill`. -/
def done (mx : Nat) (l : List Nat) (n fill : Nat) : List Nat := [0x401006, mx, 0] ++ l ++ List.replicate n fill

/-- What is seen after an exception: the exception, MXCSR, CR2, and whether all else is as before. -/
def raisedAs (o : Result) (s : State) (e : Exception) (mx cr2 : Nat) : Bool :=
  match o with
  | .next t => t == { s with raised := some e, mxcsr := BitVec.ofNat 32 mx, cr2 := BitVec.ofNat 64 cr2 }
  | _ => false

/-- The outcome is a next state with a property. -/
def nextIs (o : Result) (p : State → Bool) : Bool :=
  match o with
  | .next t => p t
  | _ => false

theorem nextIs_elim {o : Result} {p : State → Bool} (h : nextIs o p = true) : ∃ t, o = .next t ∧ p t = true := by
  cases o with
  | next t => exact ⟨t, rfl, h⟩
  | fault r => cases h
  | refused r => cases h

/-- The outcome is this fault. -/
def faultIs (o : Result) (f : Fault) : Bool :=
  match o with
  | .fault r => r == f
  | _ => false

/-- The outcome is this refusal. -/
def refusedIs (o : Result) (f : Refusal) : Bool :=
  match o with
  | .refused r => r == f
  | _ => false

/-- 15 bytes that begin with the listed ones. -/
def bytes (l : List Nat) : List Byte := (List.range 15).map fun j => BitVec.ofNat 8 (l.getD j 0)

/-! ### Well-formedness: each check refuses an ill-formed term -/

/-- An instruction with a given operand 3 and mask. -/
def shaped (m : Src3) (mask : Masking) : Instr := .vfmadd132ph128 ⟨[], 1, 2, m, mask⟩

/-- k0 selects no writemask (R14, R61). -/
theorem test_wf_k0 : (shaped (.reg 3) (.merge 0)).wf = false ∧ (shaped (.reg 3) (.zero 0)).wf = false ∧
    (shaped (.reg 3) (.merge 7)).wf = true := by decide

/-- Base fields 100b and 101b are not free (R58). -/
theorem test_wf_base : (shaped (.mem false (.baseDisp false 4 (.d8 0))) .none).wf = false ∧
    (shaped (.mem false (.baseDisp false 12 (.d32 0))) .none).wf = false ∧
    (shaped (.mem false (.baseDisp false 13 .none)) .none).wf = false ∧
    (shaped (.mem false (.sib 5 1 0 .none)) .none).wf = false ∧
    (shaped (.mem false (.sib 5 1 0 (.d8 0))) .none).wf = true := by decide

/-- At most 15 bytes (R63). -/
theorem test_wf_length :
    (Instr.vfmadd132ph128 ⟨List.replicate 10 .ds, 1, 2, .reg 3, .none⟩).wf = false ∧
    (Instr.vfmadd132ph128 ⟨List.replicate 9 .ds, 1, 2, .reg 3, .none⟩).wf = true := by decide

/-! ### Decoding -/

/-- 95_test_vectors.md DV1 to DV8, DV12, DV17: 62H P0 P1 P2 98H ModRM in the table's numbering (byte 0 lowest). P0 = F6H: no
extension bit. P1 = 6DH: vvvv = ~0010b, U = 1, pp = 01b. P2: 08H 128 bits; ABH 256 bits, z, k3; 4BH 512 bits, k3; 7AH embedded rounding RZ, k2.
ModRM = CBH: registers 1 and 3. -/
theorem test_decode_vfmadd132ph :
    decodeTableWord 48 0xCB98086DF662 = some (.vfmadd132ph128 ⟨[], 1, 2, .reg 3, .none⟩) ∧
    decodeTableWord 48 0xCB98AB6DF662 = some (.vfmadd132ph256 ⟨[], 1, 2, .reg 3, .zero 3⟩) ∧
    decodeTableWord 48 0xCB984B6DF662 = some (.vfmadd132ph512 ⟨[], 1, 2, .reg 3, .merge 3⟩) ∧
    decodeTableWord 48 0xCB987A6DF662 = some (.vfmadd132phEr ⟨[], 1, 2, 3, .merge 2, .rz⟩) := by
  decide +kernel

/-- 95_test_vectors.md DV1 to DV8, DV12, DV17: 62H P0 P1 P2 A8H ModRM in the table's numbering (byte 0 lowest). P0 = F6H: no
extension bit. P1 = 6DH: vvvv = ~0010b, U = 1, pp = 01b. P2: 08H 128 bits; ABH 256 bits, z, k3; 4BH 512 bits, k3; 7AH embedded rounding RZ, k2.
ModRM = CBH: registers 1 and 3. -/
theorem test_decode_vfmadd213ph :
    decodeTableWord 48 0xCBA8086DF662 = some (.vfmadd213ph128 ⟨[], 1, 2, .reg 3, .none⟩) ∧
    decodeTableWord 48 0xCBA8AB6DF662 = some (.vfmadd213ph256 ⟨[], 1, 2, .reg 3, .zero 3⟩) ∧
    decodeTableWord 48 0xCBA84B6DF662 = some (.vfmadd213ph512 ⟨[], 1, 2, .reg 3, .merge 3⟩) ∧
    decodeTableWord 48 0xCBA87A6DF662 = some (.vfmadd213phEr ⟨[], 1, 2, 3, .merge 2, .rz⟩) := by
  decide +kernel

/-- 95_test_vectors.md DV1 to DV8, DV12, DV17: 62H P0 P1 P2 B8H ModRM in the table's numbering (byte 0 lowest). P0 = F6H: no
extension bit. P1 = 6DH: vvvv = ~0010b, U = 1, pp = 01b. P2: 08H 128 bits; ABH 256 bits, z, k3; 4BH 512 bits, k3; 7AH embedded rounding RZ, k2.
ModRM = CBH: registers 1 and 3. -/
theorem test_decode_vfmadd231ph :
    decodeTableWord 48 0xCBB8086DF662 = some (.vfmadd231ph128 ⟨[], 1, 2, .reg 3, .none⟩) ∧
    decodeTableWord 48 0xCBB8AB6DF662 = some (.vfmadd231ph256 ⟨[], 1, 2, .reg 3, .zero 3⟩) ∧
    decodeTableWord 48 0xCBB84B6DF662 = some (.vfmadd231ph512 ⟨[], 1, 2, .reg 3, .merge 3⟩) ∧
    decodeTableWord 48 0xCBB87A6DF662 = some (.vfmadd231phEr ⟨[], 1, 2, 3, .merge 2, .rz⟩) := by
  decide +kernel

/-- 95_test_vectors.md DV1 to DV8, DV12, DV17: 62H P0 P1 P2 9CH ModRM in the table's numbering (byte 0 lowest). P0 = F6H: no
extension bit. P1 = 6DH: vvvv = ~0010b, U = 1, pp = 01b. P2: 08H 128 bits; ABH 256 bits, z, k3; 4BH 512 bits, k3; 7AH embedded rounding RZ, k2.
ModRM = CBH: registers 1 and 3. -/
theorem test_decode_vfnmadd132ph :
    decodeTableWord 48 0xCB9C086DF662 = some (.vfnmadd132ph128 ⟨[], 1, 2, .reg 3, .none⟩) ∧
    decodeTableWord 48 0xCB9CAB6DF662 = some (.vfnmadd132ph256 ⟨[], 1, 2, .reg 3, .zero 3⟩) ∧
    decodeTableWord 48 0xCB9C4B6DF662 = some (.vfnmadd132ph512 ⟨[], 1, 2, .reg 3, .merge 3⟩) ∧
    decodeTableWord 48 0xCB9C7A6DF662 = some (.vfnmadd132phEr ⟨[], 1, 2, 3, .merge 2, .rz⟩) := by
  decide +kernel

/-- 95_test_vectors.md DV1 to DV8, DV12, DV17: 62H P0 P1 P2 ACH ModRM in the table's numbering (byte 0 lowest). P0 = F6H: no
extension bit. P1 = 6DH: vvvv = ~0010b, U = 1, pp = 01b. P2: 08H 128 bits; ABH 256 bits, z, k3; 4BH 512 bits, k3; 7AH embedded rounding RZ, k2.
ModRM = CBH: registers 1 and 3. -/
theorem test_decode_vfnmadd213ph :
    decodeTableWord 48 0xCBAC086DF662 = some (.vfnmadd213ph128 ⟨[], 1, 2, .reg 3, .none⟩) ∧
    decodeTableWord 48 0xCBACAB6DF662 = some (.vfnmadd213ph256 ⟨[], 1, 2, .reg 3, .zero 3⟩) ∧
    decodeTableWord 48 0xCBAC4B6DF662 = some (.vfnmadd213ph512 ⟨[], 1, 2, .reg 3, .merge 3⟩) ∧
    decodeTableWord 48 0xCBAC7A6DF662 = some (.vfnmadd213phEr ⟨[], 1, 2, 3, .merge 2, .rz⟩) := by
  decide +kernel

/-- 95_test_vectors.md DV1 to DV8, DV12, DV17: 62H P0 P1 P2 BCH ModRM in the table's numbering (byte 0 lowest). P0 = F6H: no
extension bit. P1 = 6DH: vvvv = ~0010b, U = 1, pp = 01b. P2: 08H 128 bits; ABH 256 bits, z, k3; 4BH 512 bits, k3; 7AH embedded rounding RZ, k2.
ModRM = CBH: registers 1 and 3. -/
theorem test_decode_vfnmadd231ph :
    decodeTableWord 48 0xCBBC086DF662 = some (.vfnmadd231ph128 ⟨[], 1, 2, .reg 3, .none⟩) ∧
    decodeTableWord 48 0xCBBCAB6DF662 = some (.vfnmadd231ph256 ⟨[], 1, 2, .reg 3, .zero 3⟩) ∧
    decodeTableWord 48 0xCBBC4B6DF662 = some (.vfnmadd231ph512 ⟨[], 1, 2, .reg 3, .merge 3⟩) ∧
    decodeTableWord 48 0xCBBC7A6DF662 = some (.vfnmadd231phEr ⟨[], 1, 2, 3, .merge 2, .rz⟩) := by
  decide +kernel

/-- DV9, DV29: register and base numbers above 7. -/
theorem test_decode_high_registers :
    decode (bytes [0x62, 0x06, 0x15, 0x40, 0x98, 0xF4]) = .form (.vfmadd132ph512 ⟨[], 30, 29, .reg 28, .none⟩) ∧
    decode (bytes [0x62, 0x16, 0x75, 0x20, 0xA8, 0x44, 0x8C, 0xFE]) =
      .form (.vfmadd213ph256 ⟨[], 8, 17, .mem false (.sib 12 9 2 (.d8 0xFE)), .none⟩) := by decide +kernel

/-- DV24, DV26, DV28, DV30, DV31, DV32, DV33: the memory forms. -/
theorem test_decode_memory_forms :
    decode (bytes [0x62, 0xF6, 0x6D, 0x48, 0x98, 0x88, 0x42, 0, 0, 0]) =
      .form (.vfmadd132ph512 ⟨[], 1, 2, .mem false (.baseDisp false 0 (.d32 0x42)), .none⟩) ∧
    decode (bytes [0x62, 0xF6, 0x75, 0xB9, 0xB8, 0x50, 0x01]) =
      .form (.vfmadd231ph256 ⟨[], 2, 1, .mem true (.baseDisp false 0 (.d8 1)), .zero 1⟩) ∧
    decode (bytes [0x62, 0xF6, 0x6D, 0x48, 0xAC, 0x0C, 0x24]) =
      .form (.vfnmadd213ph512 ⟨[], 1, 2, .mem false (.sib 4 4 0 .none), .none⟩) ∧
    decode (bytes [0x62, 0xF6, 0x6D, 0x08, 0xB8, 0x0C, 0x25, 0, 0x10, 0, 0]) =
      .form (.vfmadd231ph128 ⟨[], 1, 2, .mem false (.sibNoBase false 4 0 0x1000), .none⟩) ∧
    decode (bytes [0x62, 0xF6, 0x6D, 0x08, 0xAC, 0x0D, 0, 1, 0, 0]) =
      .form (.vfnmadd213ph128 ⟨[], 1, 2, .mem false (.ripRel false false 0x100), .none⟩) ∧
    decode (bytes [0x64, 0x62, 0xF6, 0x6D, 0x08, 0x98, 0x0B]) =
      .form (.vfmadd132ph128 ⟨[.fs], 1, 2, .mem false (.baseDisp false 3 .none), .none⟩) ∧
    decode (bytes [0x67, 0x62, 0xF6, 0x6D, 0x08, 0x98, 0x0B]) =
      .form (.vfmadd132ph128 ⟨[.addr32], 1, 2, .mem false (.baseDisp false 3 .none), .none⟩) := by decide +kernel

/-- DU1 to DU10: the encodings that raise #UD. -/
theorem test_decode_ud : ([[0x62, 0xF6, 0x6D, 0x88, 0x98, 0xCB], [0x62, 0xF6, 0x6D, 0x68, 0x98, 0xCB],
    [0x62, 0xF6, 0x6D, 0x68, 0x98, 0x0B], [0x62, 0xF6, 0x6D, 0x78, 0x98, 0x0B], [0x62, 0xFE, 0x6D, 0x08, 0x98, 0xCB],
    [0x62, 0xF6, 0x69, 0x08, 0x98, 0xCB], [0x66, 0x62, 0xF6, 0x6D, 0x08, 0x98, 0xCB],
    [0xF0, 0x62, 0xF6, 0x6D, 0x08, 0x98, 0xCB], [0xF3, 0x62, 0xF6, 0x6D, 0x08, 0x98, 0xCB],
    [0x48, 0x62, 0xF6, 0x6D, 0x08, 0x98, 0xCB]].all fun l => decode (bytes l) == .ud) = true := by decide +kernel

/-- DN1 to DN7: byte strings that are not this family. -/
theorem test_decode_not_this_family : ([[0x62, 0xF6, 0xED, 0x08, 0x98, 0xCB], [0x62, 0xF6, 0x6D, 0x08, 0x99, 0xCB],
    [0x62, 0xF5, 0x6D, 0x08, 0x98, 0xCB], [0x62, 0xF6, 0x6C, 0x08, 0x98, 0xCB], [0x62, 0xF2, 0x6D, 0x08, 0x98, 0xCB],
    [0xC4, 0xE2, 0x69, 0x98, 0xCB], [0x66, 0x62, 0xF6, 0xED, 0x08, 0x98, 0xCB]].all fun l =>
      decode (bytes l) == .notThisFamily) = true := by decide +kernel

/-- DV26 in Intel syntax (R67, R68). -/
theorem test_asm_text : intelText (.vfmadd231ph256 ⟨[], 2, 1, .mem true (.baseDisp false 0 (.d8 1)), .zero 1⟩) =
    "vfmadd231ph ymm2" ++ (inBraces "k1" ++ inBraces "z" ++ ", ymm1, word ptr [rax+2H]" ++ inBraces "1to16") := by
  decide +kernel

/-! ### One lane -/

/-- Every exception masked, every parameter at its default. -/
def masked (rm : RoundMode) : LaneControl :=
  { rm := rm, masks := BitVec.allOnes 6, daz := false, ftz := false, deOnInvalid := true,
    nanSelect := .multiplicandMultiplierAddend }

/-- Rows x, y, w, negated, and for RN, RD, RU, RZ the result and the flags (IE 1, DE 2, OE 8, UE 16, PE 32). -/
def lanesOk (rows : List (Nat × Nat × Nat × Bool × List (Nat × Nat))) : Bool :=
  rows.all fun (x, y, w, neg, rs) =>
    ([RoundMode.rn, .rd, .ru, .rz].map fun rm =>
      let r := fma16 (masked rm) neg (BitVec.ofNat 16 x) (BitVec.ofNat 16 y) (BitVec.ofNat 16 w)
      (r.1.toNat, r.2.bits.toNat)) == rs

/-- 95_test_vectors.md section 3, L1 to L13. -/
theorem test_lanes_L1_to_L13 : lanesOk
    [(0x3C00, 0x4000, 0x4200, false, [(0x4500, 0), (0x4500, 0), (0x4500, 0), (0x4500, 0)]),
     (0x3C00, 0x4000, 0x4200, true, [(0x3C00, 0), (0x3C00, 0), (0x3C00, 0), (0x3C00, 0)]),
     (0x3C01, 0x3C01, 0xBC02, false, [(0x0010, 0), (0x0010, 0), (0x0010, 0), (0x0010, 0)]),
     (0x3C01, 0x3C01, 0xBC02, true, [(0xC002, 32), (0xC003, 32), (0xC002, 32), (0xC002, 32)]),
     (0x3C00, 0x3C00, 0x1000, false, [(0x3C00, 32), (0x3C00, 32), (0x3C01, 32), (0x3C00, 32)]),
     (0x3C01, 0x3C00, 0x1000, false, [(0x3C02, 32), (0x3C01, 32), (0x3C02, 32), (0x3C01, 32)]),
     (0xBC00, 0x3C00, 0x9000, false, [(0xBC00, 32), (0xBC01, 32), (0xBC00, 32), (0xBC00, 32)]),
     (0x3FFF, 0x3FFF, 0x0000, false, [(0x43FE, 32), (0x43FE, 32), (0x43FF, 32), (0x43FE, 32)]),
     (0x4000, 0x4000, 0xC400, false, [(0x0000, 0), (0x8000, 0), (0x0000, 0), (0x0000, 0)]),
     (0x3C00, 0xBC00, 0x3C00, false, [(0x0000, 0), (0x8000, 0), (0x0000, 0), (0x0000, 0)]),
     (0x3C00, 0xBC00, 0x3C00, true, [(0x4000, 0), (0x4000, 0), (0x4000, 0), (0x4000, 0)]),
     (0x8000, 0x3C00, 0x8000, false, [(0x8000, 0), (0x8000, 0), (0x8000, 0), (0x8000, 0)]),
     (0x0000, 0x3C00, 0x8000, false, [(0x0000, 0), (0x8000, 0), (0x0000, 0), (0x0000, 0)])] = true := by
  decide +kernel

/-- 95_test_vectors.md section 3, L14 to L26. -/
theorem test_lanes_L14_to_L26 : lanesOk
    [(0x0000, 0x3C00, 0x8000, true, [(0x8000, 0), (0x8000, 0), (0x8000, 0), (0x8000, 0)]),
     (0x0000, 0x0000, 0x0000, true, [(0x0000, 0), (0x8000, 0), (0x0000, 0), (0x0000, 0)]),
     (0x0000, 0x4500, 0x3555, false, [(0x3555, 0), (0x3555, 0), (0x3555, 0), (0x3555, 0)]),
     (0x0000, 0x4500, 0x0123, false, [(0x0123, 2), (0x0123, 2), (0x0123, 2), (0x0123, 2)]),
     (0x7BFF, 0x4000, 0x0000, false, [(0x7C00, 40), (0x7BFF, 40), (0x7C00, 40), (0x7BFF, 40)]),
     (0x7BFF, 0x4000, 0x0000, true, [(0xFC00, 40), (0xFC00, 40), (0xFBFF, 40), (0xFBFF, 40)]),
     (0x7BFF, 0x3C00, 0x4C00, false, [(0x7C00, 40), (0x7BFF, 32), (0x7C00, 40), (0x7BFF, 32)]),
     (0x7BFF, 0x3C00, 0x4B80, false, [(0x7BFF, 32), (0x7BFF, 32), (0x7C00, 40), (0x7BFF, 32)]),
     (0x5C00, 0x5C00, 0x0000, false, [(0x7C00, 40), (0x7BFF, 40), (0x7C00, 40), (0x7BFF, 40)]),
     (0x7BFF, 0x7BFF, 0xFC00, false, [(0xFC00, 0), (0xFC00, 0), (0xFC00, 0), (0xFC00, 0)]),
     (0x3C00, 0x3C00, 0xFC00, false, [(0xFC00, 0), (0xFC00, 0), (0xFC00, 0), (0xFC00, 0)]),
     (0x7C00, 0x3C00, 0x7C00, false, [(0x7C00, 0), (0x7C00, 0), (0x7C00, 0), (0x7C00, 0)]),
     (0x7C00, 0x0000, 0x3C00, false, [(0xFE00, 1), (0xFE00, 1), (0xFE00, 1), (0xFE00, 1)])] = true := by
  decide +kernel

/-- 95_test_vectors.md section 3, L27 to L39. -/
theorem test_lanes_L27_to_L39 : lanesOk
    [(0x0000, 0xFC00, 0x7E00, false, [(0x7E00, 0), (0x7E00, 0), (0x7E00, 0), (0x7E00, 0)]),
     (0x0000, 0x7C00, 0x7D00, false, [(0x7F00, 1), (0x7F00, 1), (0x7F00, 1), (0x7F00, 1)]),
     (0x7C00, 0x3C00, 0xFC00, false, [(0xFE00, 1), (0xFE00, 1), (0xFE00, 1), (0xFE00, 1)]),
     (0x7C00, 0x3C00, 0xFC00, true, [(0xFC00, 0), (0xFC00, 0), (0xFC00, 0), (0xFC00, 0)]),
     (0x7C00, 0xBC00, 0x7C00, false, [(0xFE00, 1), (0xFE00, 1), (0xFE00, 1), (0xFE00, 1)]),
     (0x7C00, 0x0001, 0xFC00, false, [(0xFE00, 3), (0xFE00, 3), (0xFE00, 3), (0xFE00, 3)]),
     (0x7C00, 0x0001, 0x3C00, false, [(0x7C00, 2), (0x7C00, 2), (0x7C00, 2), (0x7C00, 2)]),
     (0x7E01, 0x7E02, 0x7E03, false, [(0x7E01, 0), (0x7E01, 0), (0x7E01, 0), (0x7E01, 0)]),
     (0x3C00, 0x7E02, 0x7E03, false, [(0x7E02, 0), (0x7E02, 0), (0x7E02, 0), (0x7E02, 0)]),
     (0x3C00, 0x3C00, 0xFE03, false, [(0xFE03, 0), (0xFE03, 0), (0xFE03, 0), (0xFE03, 0)]),
     (0x7D01, 0x7E02, 0x3C00, false, [(0x7F01, 1), (0x7F01, 1), (0x7F01, 1), (0x7F01, 1)]),
     (0x7E01, 0x7D02, 0x3C00, false, [(0x7E01, 1), (0x7E01, 1), (0x7E01, 1), (0x7E01, 1)]),
     (0xFE01, 0x3C00, 0x3C00, true, [(0xFE01, 0), (0xFE01, 0), (0xFE01, 0), (0xFE01, 0)])] = true := by
  decide +kernel

/-- 95_test_vectors.md section 3, L40 to L51. -/
theorem test_lanes_L40_to_L51 : lanesOk
    [(0x7E01, 0x0001, 0x3C00, false, [(0x7E01, 0), (0x7E01, 0), (0x7E01, 0), (0x7E01, 0)]),
     (0x0001, 0x4000, 0x0000, false, [(0x0002, 2), (0x0002, 2), (0x0002, 2), (0x0002, 2)]),
     (0x03FF, 0x3C00, 0x0001, false, [(0x0400, 2), (0x0400, 2), (0x0400, 2), (0x0400, 2)]),
     (0x0400, 0x3800, 0x0000, false, [(0x0200, 0), (0x0200, 0), (0x0200, 0), (0x0200, 0)]),
     (0x0001, 0x3800, 0x0000, false, [(0x0000, 50), (0x0000, 50), (0x0001, 50), (0x0000, 50)]),
     (0x0001, 0x3800, 0x0000, true, [(0x8000, 50), (0x8001, 50), (0x8000, 50), (0x8000, 50)]),
     (0x0001, 0x3801, 0x0000, false, [(0x0001, 50), (0x0000, 50), (0x0001, 50), (0x0000, 50)]),
     (0x0001, 0x0001, 0x0000, false, [(0x0000, 50), (0x0000, 50), (0x0001, 50), (0x0000, 50)]),
     (0x0001, 0x8001, 0x0000, false, [(0x8000, 50), (0x8001, 50), (0x8000, 50), (0x8000, 50)]),
     (0x0800, 0x8800, 0x0400, false, [(0x0400, 32), (0x03FF, 48), (0x0400, 32), (0x03FF, 48)]),
     (0x0400, 0x3BFF, 0x0000, false, [(0x0400, 48), (0x03FF, 48), (0x0400, 48), (0x03FF, 48)]),
     (0x0400, 0x3C00, 0x8001, false, [(0x03FF, 2), (0x03FF, 2), (0x03FF, 2), (0x03FF, 2)])] = true := by
  decide +kernel

/-! ### One step -/

/-- Section 4, V1, vfmadd132ph xmm1, xmm2, xmm3. -/
theorem test_V1_vfmadd132ph128 :
    seen (step (v1 0x1F80 0x08 0x98)) 1 = done 0x1FA0 [0x4500, 0x4400, 0x3C00, 0x4840, 0xBC00, 0x4600, 0x70EE, 0x0000] 24 0 := by
  decide +kernel

/-- The same operands at 256 bits: lanes 8 to 15 hold 7E00H and zeros, so they return 7E00H (R101). -/
theorem test_V1_vfmadd132ph256 :
    seen (step (v1 0x1F80 0x28 0x98)) 1 =
      done 0x1FA0 ([0x4500, 0x4400, 0x3C00, 0x4840, 0xBC00, 0x4600, 0x70EE, 0x0000] ++ List.replicate 8 0x7E00) 16 0 := by
  decide +kernel

/-- The same operands at 512 bits. -/
theorem test_V1_vfmadd132ph512 :
    seen (step (v1 0x1F80 0x48 0x98)) 1 = done 0x1FA0 [0x4500, 0x4400, 0x3C00, 0x4840, 0xBC00, 0x4600, 0x70EE, 0x0000] 24 0x7E00 := by
  decide +kernel

/-- The V1 table for round down, with embedded rounding: no flag is set and none raises (R89). -/
theorem test_V1_vfmadd132phEr :
    seen (step (v1 0x0000 0x38 0x98)) 1 = done 0x0000 [0x4500, 0x4400, 0x3C00, 0x4840, 0xBC00, 0x4600, 0x70EE, 0x0000] 24 0x7E00 := by
  decide +kernel

/-- Section 4, V1, vfmadd213ph xmm1, xmm2, xmm3. -/
theorem test_V1_vfmadd213ph128 :
    seen (step (v1 0x1F80 0x08 0xA8)) 1 = done 0x1FA0 [0x4500, 0x4500, 0xC500, 0x4400, 0x3C00, 0x4600, 0x70EE, 0x8000] 24 0 := by
  decide +kernel

/-- The same operands at 256 bits: lanes 8 to 15 hold 7E00H and zeros, so they return 7E00H (R101). -/
theorem test_V1_vfmadd213ph256 :
    seen (step (v1 0x1F80 0x28 0xA8)) 1 =
      done 0x1FA0 ([0x4500, 0x4500, 0xC500, 0x4400, 0x3C00, 0x4600, 0x70EE, 0x8000] ++ List.replicate 8 0x7E00) 16 0 := by
  decide +kernel

/-- The same operands at 512 bits. -/
theorem test_V1_vfmadd213ph512 :
    seen (step (v1 0x1F80 0x48 0xA8)) 1 = done 0x1FA0 [0x4500, 0x4500, 0xC500, 0x4400, 0x3C00, 0x4600, 0x70EE, 0x8000] 24 0x7E00 := by
  decide +kernel

/-- The V1 table for round down, with embedded rounding: no flag is set and none raises (R89). -/
theorem test_V1_vfmadd213phEr :
    seen (step (v1 0x0000 0x38 0xA8)) 1 = done 0x0000 [0x4500, 0x4500, 0xC500, 0x4400, 0x3C00, 0x4600, 0x70EE, 0x8000] 24 0x7E00 := by
  decide +kernel

/-- Section 4, V1, vfmadd231ph xmm1, xmm2, xmm3. -/
theorem test_V1_vfmadd231ph128 :
    seen (step (v1 0x1F80 0x08 0xB8)) 1 = done 0x1FA0 [0x4700, 0x4400, 0x3C00, 0x4500, 0x4500, 0x4C20, 0x70EE, 0x8000] 24 0 := by
  decide +kernel

/-- The same operands at 256 bits: lanes 8 to 15 hold 7E00H and zeros, so they return 7E00H (R101). -/
theorem test_V1_vfmadd231ph256 :
    seen (step (v1 0x1F80 0x28 0xB8)) 1 =
      done 0x1FA0 ([0x4700, 0x4400, 0x3C00, 0x4500, 0x4500, 0x4C20, 0x70EE, 0x8000] ++ List.replicate 8 0x7E00) 16 0 := by
  decide +kernel

/-- The same operands at 512 bits. -/
theorem test_V1_vfmadd231ph512 :
    seen (step (v1 0x1F80 0x48 0xB8)) 1 = done 0x1FA0 [0x4700, 0x4400, 0x3C00, 0x4500, 0x4500, 0x4C20, 0x70EE, 0x8000] 24 0x7E00 := by
  decide +kernel

/-- The V1 table for round down, with embedded rounding: no flag is set and none raises (R89). -/
theorem test_V1_vfmadd231phEr :
    seen (step (v1 0x0000 0x38 0xB8)) 1 = done 0x0000 [0x4700, 0x4400, 0x3C00, 0x4500, 0x4500, 0x4C20, 0x70EE, 0x8000] 24 0x7E00 := by
  decide +kernel

/-- Section 4, V1, vfnmadd132ph xmm1, xmm2, xmm3. -/
theorem test_V1_vfnmadd132ph128 :
    seen (step (v1 0x1F80 0x08 0x9C)) 1 = done 0x1FA0 [0xBC00, 0x0000, 0xC500, 0xC780, 0x4500, 0x4000, 0xF0D6, 0x0000] 24 0 := by
  decide +kernel

/-- The same operands at 256 bits: lanes 8 to 15 hold 7E00H and zeros, so they return 7E00H (R101). -/
theorem test_V1_vfnmadd132ph256 :
    seen (step (v1 0x1F80 0x28 0x9C)) 1 =
      done 0x1FA0 ([0xBC00, 0x0000, 0xC500, 0xC780, 0x4500, 0x4000, 0xF0D6, 0x0000] ++ List.replicate 8 0x7E00) 16 0 := by
  decide +kernel

/-- The same operands at 512 bits. -/
theorem test_V1_vfnmadd132ph512 :
    seen (step (v1 0x1F80 0x48 0x9C)) 1 = done 0x1FA0 [0xBC00, 0x0000, 0xC500, 0xC780, 0x4500, 0x4000, 0xF0D6, 0x0000] 24 0x7E00 := by
  decide +kernel

/-- The V1 table for round down, with embedded rounding: no flag is set and none raises (R89). -/
theorem test_V1_vfnmadd132phEr :
    seen (step (v1 0x0000 0x38 0x9C)) 1 = done 0x0000 [0xBC00, 0x8000, 0xC500, 0xC780, 0x4500, 0x4000, 0xF0D6, 0x8000] 24 0x7E00 := by
  decide +kernel

/-- Section 4, V1, vfnmadd213ph xmm1, xmm2, xmm3. -/
theorem test_V1_vfnmadd213ph128 :
    seen (step (v1 0x1F80 0x08 0xAC)) 1 = done 0x1FA0 [0x3C00, 0xC200, 0x4700, 0x0000, 0x4500, 0x4000, 0xF0D6, 0x0000] 24 0 := by
  decide +kernel

/-- The same operands at 256 bits: lanes 8 to 15 hold 7E00H and zeros, so they return 7E00H (R101). -/
theorem test_V1_vfnmadd213ph256 :
    seen (step (v1 0x1F80 0x28 0xAC)) 1 =
      done 0x1FA0 ([0x3C00, 0xC200, 0x4700, 0x0000, 0x4500, 0x4000, 0xF0D6, 0x0000] ++ List.replicate 8 0x7E00) 16 0 := by
  decide +kernel

/-- The same operands at 512 bits. -/
theorem test_V1_vfnmadd213ph512 :
    seen (step (v1 0x1F80 0x48 0xAC)) 1 = done 0x1FA0 [0x3C00, 0xC200, 0x4700, 0x0000, 0x4500, 0x4000, 0xF0D6, 0x0000] 24 0x7E00 := by
  decide +kernel

/-- The V1 table for round down, with embedded rounding: no flag is set and none raises (R89). -/
theorem test_V1_vfnmadd213phEr :
    seen (step (v1 0x0000 0x38 0xAC)) 1 = done 0x0000 [0x3C00, 0xC200, 0x4700, 0x8000, 0x4500, 0x4000, 0xF0D6, 0x8000] 24 0x7E00 := by
  decide +kernel

/-- Section 4, V1, vfnmadd231ph xmm1, xmm2, xmm3. -/
theorem test_V1_vfnmadd231ph128 :
    seen (step (v1 0x1F80 0x08 0xBC)) 1 = done 0x1FA0 [0xC500, 0x0000, 0x4500, 0x4200, 0xC700, 0xCBC0, 0xF0D6, 0x0000] 24 0 := by
  decide +kernel

/-- The same operands at 256 bits: lanes 8 to 15 hold 7E00H and zeros, so they return 7E00H (R101). -/
theorem test_V1_vfnmadd231ph256 :
    seen (step (v1 0x1F80 0x28 0xBC)) 1 =
      done 0x1FA0 ([0xC500, 0x0000, 0x4500, 0x4200, 0xC700, 0xCBC0, 0xF0D6, 0x0000] ++ List.replicate 8 0x7E00) 16 0 := by
  decide +kernel

/-- The same operands at 512 bits. -/
theorem test_V1_vfnmadd231ph512 :
    seen (step (v1 0x1F80 0x48 0xBC)) 1 = done 0x1FA0 [0xC500, 0x0000, 0x4500, 0x4200, 0xC700, 0xCBC0, 0xF0D6, 0x0000] 24 0x7E00 := by
  decide +kernel

/-- The V1 table for round down, with embedded rounding: no flag is set and none raises (R89). -/
theorem test_V1_vfnmadd231phEr :
    seen (step (v1 0x0000 0x38 0xBC)) 1 = done 0x0000 [0xC500, 0x8000, 0x4500, 0x4200, 0xC700, 0xCBC0, 0xF0D6, 0x8000] 24 0x7E00 := by
  decide +kernel

/-- V2, V3: merging and zeroing under k3 = ...5AH, whose upper bits are ignored. -/
theorem test_V2_V3_masking :
    seen (step (withK 3 0xFFFFFFFFFFFFFF5A (v1 0x1F80 0x0B 0xAC))) 1 =
      done 0x1FA0 [0x3C00, 0xC200, 0x4200, 0x0000, 0x4500, 0x3800, 0xF0D6, 0x8000] 24 0 ∧
    seen (step (withK 3 0xFFFFFFFFFFFFFF5A (v1 0x1F80 0x8B 0xAC))) 1 =
      done 0x1FA0 [0x0000, 0xC200, 0x0000, 0x0000, 0x4500, 0x0000, 0xF0D6, 0x0000] 24 0 := by decide +kernel

/-- V7: embedded rounding, MXCSR.RC = RN, every exception unmasked. -/
theorem test_V7_embedded_rounding :
    seen (step (eRow 0 0x38 [0x3C01] 0x1000 0x3C00)) 1 = done 0 [0x3C01] 31 0x3C00 ∧
    seen (step (eRow 0 0x58 [0x3C01] 0x1000 0x3C00)) 1 = done 0 [0x3C02] 31 0x3C01 := by decide +kernel

/-- V8: the rounding mode of MXCSR.RC, here RU. -/
theorem test_V8_mxcsr_rounding :
    seen (step (eRow 0x5F80 0x08 [0x3C00, 0x3C01] 0x1000 0x3C00)) 1 =
      done 0x5FA0 [0x3C01, 0x3C02, 0x3C01, 0x3C01, 0x3C01, 0x3C01, 0x3C01, 0x3C01] 24 0 := by decide +kernel

/-- E1a, E1b, E1c: a signalling NaN, masked, #XM, and #UD without CR4.OSXMMEXCPT. -/
theorem test_E1_invalid :
    seen (step (eRow 0x1F80 0x08 [0x3C00, 0x3C00, 0x7D00] 0x3C00 0x3C00)) 1 =
      done 0x1F81 [0x4000, 0x4000, 0x7F00, 0x4000, 0x4000, 0x4000, 0x4000, 0x4000] 24 0 ∧
    (let s := eRow 0x1F00 0x08 [0x3C00, 0x3C00, 0x7D00] 0x3C00 0x3C00
     raisedAs (step s) s .xm 0x1F01 0 = true) ∧
    (let s := { eRow 0x1F00 0x08 [0x3C00, 0x3C00, 0x7D00] 0x3C00 0x3C00 with cr4 := 0x40000 }
     raisedAs (step s) s .ud 0x1F01 0 = true) := by decide +kernel

/-- E3b, E3c, E3e: the two phases of the flags. -/
theorem test_E3_phases :
    (let s := eRow 0x1E80 0x08 [0x0001, 0x7BFF] 0 0x4000
     raisedAs (step s) s .xm 0x1E82 0 = true) ∧
    (let s := eRow 0x1B80 0x08 [0x0001, 0x7BFF] 0 0x4000
     raisedAs (step s) s .xm 0x1BAA 0 = true) ∧
    seen (step (withK 1 0xFC (eRow 0x1A80 0x09 [0x0001, 0x7BFF] 0 0x4000))) 1 =
      done 0x1A80 [0x0001, 0x7BFF, 0x4000, 0x4000, 0x4000, 0x4000, 0x4000, 0x4000] 24 0 := by decide +kernel

/-- E4a, E4b: a tiny exact result. -/
theorem test_E4_underflow :
    seen (step (eRow 0x1F80 0x08 [0x0400] 0 0x3800)) 1 =
      done 0x1F80 [0x0200, 0x3800, 0x3800, 0x3800, 0x3800, 0x3800, 0x3800, 0x3800] 24 0 ∧
    (let s := eRow 0x1780 0x08 [0x0400] 0 0x3800
     raisedAs (step s) s .xm 0x1790 0 = true) := by decide +kernel

/-- M1: little-endian elements of a misaligned operand. -/
theorem test_M1_byte_order :
    seen (step (withMem 0x3001 [0, 0x3C, 0, 0x40, 0, 0x42, 0, 0x44, 0, 0x45, 0, 0x46, 0, 0x47, 0, 0x48]
      (with123 (atBase [0x62, 0xF6, 0x6D, 0x08, 0x98, 0x0B] 0x3001) (vec [] 0x4000) (vec [] 0x3C00) 0))) 1 =
      done 0x1F80 [0x4200, 0x4500, 0x4700, 0x4880, 0x4980, 0x4A80, 0x4B80, 0x4C40] 24 0 := by decide +kernel

/-- M2: fault suppression, and the faulting address. -/
theorem test_M2_fault_suppression :
    seen (step (pageEdge 0x1F80 0x0F)) 1 =
      done 0x1F80 [0x4200, 0x4500, 0x4700, 0x4880, 0x4000, 0x4000, 0x4000, 0x4000] 24 0 ∧
    raisedAs (step (pageEdge 0x1F80 0x1F)) (pageEdge 0x1F80 0x1F) (.pf 4 0x2000) 0x1F80 0x2000 = true ∧
    seen (step (pageEdge 0x1F80 0)) 1 = done 0x1F80 (List.replicate 8 0x4000) 24 0 := by decide +kernel

/-- M3: non-canonical operands: rbx, under a mask of zeros, the last bytes only, and rbp. -/
theorem test_M3_non_canonical :
    (let s := atBase [0x62, 0xF6, 0x6D, 0x08, 0x98, 0x0B] 0x800000000000
     raisedAs (step s) s .gp 0x1F80 0 = true) ∧
    (let s := atBase [0x62, 0xF6, 0x6D, 0x09, 0x98, 0x0B] 0x800000000000
     raisedAs (step s) s .gp 0x1F80 0 = true) ∧
    (let s := atBase [0x62, 0xF6, 0x6D, 0x08, 0x98, 0x0B] 0x7FFFFFFFFFF8
     raisedAs (step s) s .gp 0x1F80 0 = true) ∧
    (let s := atBase [0x62, 0xF6, 0x6D, 0x08, 0x98, 0x4D, 0] 0x800000000000
     raisedAs (step s) s .ss 0x1F80 0 = true) := by decide +kernel

/-- M4: a broadcast reads two bytes. -/
theorem test_M4_broadcast :
    seen (step (withMem 0x5000 [0, 0x42] (withK 7 0xFFFF0000
      (with123 (atBase [0x62, 0xF6, 0x6D, 0x5F, 0xA8, 0x0B] 0x5000) (vec [] 0x4000) (vec [] 0x3C00) 0)))) 1 =
      done 0x1F80 (List.replicate 16 0x4000) 16 0x4500 := by decide +kernel

/-- M6: RIP-relative, from the address of the next instruction. -/
theorem test_M6_rip_relative :
    (let s := launch 0x1F80 [0x62, 0xF6, 0x6D, 0x08, 0xAC, 0x0D, 0, 1, 0, 0]
     s.linearAddress (plainForm .d213 true .v128 ⟨[], 1, 2, .mem false (.ripRel false false 0x100), .none⟩) false
       (.ripRel false false 0x100)) = 0x40110A#64 := by decide +kernel

/-- P4, second instruction: one register in all three places is read before it is written. -/
theorem test_P4_one_register :
    seen (step ((launch 0x1F80 [0x62, 0x06, 0x0D, 0x40, 0xBC, 0xF6]).setZmm 30 ⟨vec [0x3C00, 0x3E00, 0x4000, 0x4100] 0, 0⟩)) 30
      = done 0x1F80 [0x0000, 0xBA00, 0xC000, 0xC380] 28 0 := by decide +kernel

/-- P5: #NM with CR0.TS, #UD without the AVX-512 state, #UD after reset; and the end of a run at the empty text. -/
theorem test_P5_cannot_start :
    (let s := { v1 0x1F80 0x08 0x98 with cr0 := 9 }
     raisedAs (step s) s .nm 0x1F80 0 = true) ∧
    (let s := { v1 0x1F80 0x08 0x98 with xcr0 := 7 }
     raisedAs (step s) s .ud 0x1F80 0 = true) ∧
    (let s := State.reset.withFetchWord 48 0xCB98086DF662
     raisedAs (step s) s .ud 0x1F80 0 = true) ∧
    faultIs (step State.reset) .endOfProgram = true := by decide +kernel

/-- After reset memory lists nothing, in canonical form. -/
theorem test_reset_memory : State.reset.mem.wf := by decide

/-! ### Witnesses: encoding -/

/-- Four prefixes, SIB and disp32: 15 bytes. -/
def longest : Instr := .vfnmadd231ph512 ⟨[.fs, .gs, .addr32, .ss], 31, 16, .mem true (.sib 13 15 3 (.d32 0xFFFFFFFF)), .zero 7⟩

theorem witness_DecodeReadsBackEncode : longest.wf = true ∧ longest.ilen = 15 := by decide +kernel

theorem witness_AcceptedBytesAreTheEncoding : decode (encode longest) = .form longest := by decide +kernel

/-- The first clause met with a row and with z = 1, aaa = 000b; the second with a row. -/
theorem witness_TableAgreesWithDecoder :
    5 ≤ [0#8, 0#8, 0#8, 0#8, 0#8].length ∧ prefixOf 0x62#8 = none ∧ badPrefix 0x62#8 = false ∧
    decode (0x62#8 :: 0xF6#8 :: 0x6D#8 :: 0x78#8 :: 0x98#8 :: 0xCB#8 :: [0#8, 0#8, 0#8, 0#8, 0#8]) =
      .form (.vfmadd132phEr ⟨[], 1, 2, 3, .none, .rz⟩) ∧
    (tableRowOf 0x62F66D9898CB#48).isSome = true ∧
    decode (0x62#8 :: 0xF6#8 :: 0x6D#8 :: 0x98#8 :: 0x98#8 :: 0xCB#8 :: [0#8, 0#8, 0#8, 0#8, 0#8]) = .ud := by
  decide +kernel

/-- The step clauses apply: no exception pending, no launch refusal, not at the end of the text. -/
def steppable (s : State) : Bool := s.raised == none && s.launchRefusal == none && !s.atEndOfText s.fetchAddress

/-- Prefixes beyond any length; steps on U1 and on U1 after twelve prefixes (18 bytes: R66 tests the length last); U1 at the
end of the canonical half and at the end of the addresses (R19); and U1 where the text ends before ModRM (R167). -/
theorem witness_IllegalEncodingsAreUd :
    (AllPrefixes (List.replicate 20 0x2E#8 ++ [0x66#8, 0x48#8, 0xF3#8]) ∧ inFamily 0xF6#8 0x6D#8 = true ∧
      (opcodeOf 0x98#8).isSome = true) ∧
    ([launch 0x1F80 [0x62, 0xFE, 0x6D, 0x08, 0x98, 0xCB],
      launch 0x1F80 (List.replicate 12 0x2E ++ [0x62, 0xFE, 0x6D, 0x08, 0x98, 0xCB]),
      launchAt 0x7FFFFFFFFFF9 [0x62, 0xFE, 0x6D, 0x08, 0x98, 0xCB]].all fun s =>
      steppable s && decode s.fetched.1 == .ud && s.nextRipFits (shapeLength s.fetched.1) && raisedAs (step s) s .ud 0x1F80 0) =
      true ∧
    ([launchAt 0x7FFFFFFFFFFA [0x62, 0xFE, 0x6D, 0x08, 0x98, 0xCB],
      launchAt 0xFFFFFFFFFFFFFFFA [0x62, 0xFE, 0x6D, 0x08, 0x98, 0xCB]].all fun s =>
      steppable s && decode s.fetched.1 == .ud && !s.nextRipFits (shapeLength s.fetched.1) &&
        refusedIs (step s) .ripNotCanonical) = true ∧
    ([[], List.replicate 12 0x2E].all fun pre =>
      let s := launch 0x1F80 (pre ++ [0x62, 0xFE, 0x6D, 0x08, 0x98])
      steppable s && s.fetched == (pre.map (BitVec.ofNat 8) ++ [0x62#8, 0xFE#8, 0x6D#8, 0x08#8, 0x98#8], .beyondText) &&
        s.nextRipFits (pre.length + 6) && refusedIs (step s) .beyondProgramText) = true :=
  ⟨by unfold AllPrefixes; decide +kernel, by decide +kernel, by decide +kernel, by decide +kernel⟩

/-- Each of the four neighbours, and a step on one with ten prefixes. -/
theorem witness_NeighbourEncodingsRefused :
    AllPrefixes (List.replicate 10 0x26#8) ∧
    (0xF5#8).extractLsb' 0 3 ≠ 6#3 ∧ (0x6C#8).extractLsb' 0 2 ≠ 1#2 ∧ (0xED#8).getLsbD 7 = true ∧
    0x99#8 ∉ [0x98#8, 0xA8#8, 0xB8#8, 0x9C#8, 0xAC#8, 0xBC#8] ∧
    (let s := launch 0x1F80 (List.replicate 10 0x26 ++ [0x62, 0xF6, 0x6D, 0x08, 0x99, 0xCB])
     s.raised = none ∧ s.launchRefusal = none ∧ s.atEndOfText s.fetchAddress = false ∧
      s.fetched.1 = List.replicate 10 0x26#8 ++ 0x62#8 :: 0xF6#8 :: 0x6D#8 :: 0x08#8 :: 0x99#8 :: [0xCB#8] ∧
      refusedIs (step s) .notThisFamily = true) :=
  ⟨by unfold AllPrefixes; decide +kernel, by decide, by decide, by decide, by decide, by decide +kernel⟩

/-- Sixteen bytes, one too many. -/
def tooLong : Instr := .vfmadd132ph128 ⟨List.replicate 10 .ds, 1, 2, .reg 3, .none⟩

/-- The launch with those bytes, or with the first fifteen alone. -/
def tooLongAt (n : Nat) : State :=
  launch 0x1F80 ((List.replicate 10 0x3E ++ [0x62, 0xF6, 0x6D, 0x08, 0x98, 0xCB]).take n)

/-- All 16 bytes fetched, and 15, because the next byte page-faults or because the text ends. And at the end of the
canonical half: all 16 bytes fetched, and 15, where the sixteenth is not canonical or would lie past the last address. -/
theorem witness_LongInstructionRaisesGp :
    (tooLong.form.mask.wf = true ∧ tooLong.form.src3.wf = true ∧ tooLong.ilen = 16 ∧ tooLong.form.pfx.length + 5 ≤ 15) ∧
    ([(tooLongAt 16, 16),
      ({ tooLongAt 16 with translation := [⟨0x40100F, 0x40100F, none, none, .pageFault 4⟩] }, 15)].all fun (s, n) =>
      steppable s && s.nextRipFits (shapeLength s.fetched.1) && (n == 16 || s.fetched.2 == .pageFault 0x40100F 4) &&
        s.fetched.1 == (encode tooLong ++ []).take n && raisedAs (step s) s .gp 0x1F80 0) = true ∧
    (let s := tooLongAt 15
     steppable s = true ∧ s.nextRipFits (shapeLength s.fetched.1) = true ∧ s.fetched.2 = .beyondText ∧
      s.fetched.1 = (encode tooLong ++ []).take 15 ∧ refusedIs (step s) .beyondProgramText = true) ∧
    ([(0x7FFFFFFFFFF0, 16), (0x7FFFFFFFFFF1, 15), (0xFFFFFFFFFFFFFFF1, 15)].all fun (a, n) =>
      let s := launchAt a ((List.replicate 10 0x3E ++ [0x62, 0xF6, 0x6D, 0x08, 0x98, 0xCB]))
      steppable s && !s.nextRipFits (shapeLength (s.fetched.1)) && s.fetched.1 == (encode tooLong ++ []).take n &&
        refusedIs (step s) .ripNotCanonical) = true := by decide +kernel

/-! ### Witnesses: one lane -/

/-- Each NaN position. -/
theorem witness_NanLaneReturnsFirstNan : (masked .rn).nanSelect = .multiplicandMultiplierAddend ∧
    isNan 0x7D01#16 = true ∧ (isNan 0x3C00#16 = false ∧ isNan 0xFE02#16 = true) ∧ isNan 0x4000#16 = false ∧
    (fma16 (masked .rn) false 0x3C00#16 0x4000#16 0xFE02#16) = (0xFE02#16, {}) ∧
    (fma16 (masked .rn) false 0x7D01#16 0x7E02#16 0#16) = (0x7F01#16, { ie := true }) := by decide +kernel

/-- L26, its mirror, L29, and a denormal factor (L32). -/
theorem witness_InvalidLaneReturnsDefaultNan : (masked .rn).daz = false ∧
    (isInf 0x7C00#16 = true ∧ isZero 0x8000#16 = true ∧ isNan 0x7C00#16 = false ∧ isNan 0x8000#16 = false ∧
      isNan 0x0001#16 = false) ∧
    (isInf 0xFC00#16 = true ∧ isNan 0xFC00#16 = false ∧
      fpSign 0xFC00#16 = !((fpSign 0x7C00#16).xor (fpSign 0x0001#16)).xor false) := by decide +kernel

/-- L25, L33, L24. -/
theorem witness_InfiniteLaneResult : (masked .rn).daz = false ∧
    (isInf 0x7C00#16 = true ∧ isZero 0x0001#16 = false ∧
      fpSign 0x7C00#16 = ((fpSign 0x7C00#16).xor (fpSign 0x0001#16)).xor false) ∧
    (isInf 0x3C00#16 = false ∧ isInf 0xFC00#16 = true ∧ isNan 0xFC00#16 = false) := by decide +kernel

/-- L12, L13, L9, L17; L17 again with UM = 0 (log 33). -/
theorem witness_ExactZeroLaneResult : (masked .rd).daz = false ∧
    (isFinite 0x8000#16 = true ∧ isFinite 0x3C00#16 = true ∧ exactFma false 0x8000#16 0x3C00#16 0x8000#16 = 0) ∧
    exactFma false 0x4000#16 0x4000#16 0xC400#16 = 0 ∧ isFinite 0xC400#16 = true ∧
    (isFinite 0x4500#16 = true ∧ isFinite 0x0123#16 = true ∧ fpVal 0x0000#16 * fpVal 0x4500#16 = 0 ∧ fpVal 0x0123#16 ≠ 0 ∧ (masked .rd).ftz = false) ∧
    fma16 { masked .rn with masks := 0x2F#6 } false 0x0000#16 0x4500#16 0x0123#16 = (0x0123#16, { de := true, ue := true }) := by decide +kernel

/-- L1, L41 and the largest finite value. -/
theorem witness_RepresentableResultIsExact :
    exactFma false 0x3C00#16 0x4000#16 0x4200#16 = fpVal 0x4500#16 * 2 ^ 24 ∧ fpVal 0x4500#16 ≠ 0 ∧
    exactFma false 0x0001#16 0x4000#16 0x0000#16 = fpVal 0x0002#16 * 2 ^ 24 ∧ fpVal 0x0002#16 ≠ 0 ∧
    exactFma true 0x7BFF#16 0x3C00#16 0x0000#16 = fpVal 0xFBFF#16 * 2 ^ 24 ∧ isFinite 0xFBFF#16 = true ∧
    ([0x3C00#16, 0x4000#16, 0x4200#16, 0x4500#16, 0x0001#16, 0x0002#16, 0x0000#16, 0x7BFF#16].all isFinite) = true := by
  decide +kernel

/-- A finite lane (L5) and a lane with an infinity (L24). -/
theorem witness_PrecisionMeansInexact : (masked .rn).daz = false ∧ isFinite 0x3C00#16 = true ∧
    isFinite 0x1000#16 = true ∧ isFinite 0xFC00#16 = false := by decide +kernel

/-- L5 and its mirror in the three directed modes, a finite overflow result (L18 under RD), and a result that rounds to the
zero of its sign (R107). -/
theorem witness_DirectedRoundingIsTight :
    ([RoundMode.rd, .ru, .rz].all fun rm => isFinite (fma16 (masked rm) true 0x3C00#16 0x3C00#16 0x9000#16).1) = true ∧
    0 ≤ exactFma false 0x3C00#16 0x3C00#16 0x1000#16 ∧ exactFma true 0x3C00#16 0x3C00#16 0x9000#16 ≤ 0 ∧
    exactFma false 0x8001#16 0x0001#16 0#16 = -1 ∧ (fma16 (masked .rz) false 0x8001#16 0x0001#16 0#16).1 = 0x8000#16 ∧
    ([RoundMode.rd, .ru, .rz].all fun rm => isFinite (fma16 (masked rm) false 0x3C00#16 0x3C00#16 0x1000#16).1) = true ∧
    isFinite (fma16 (masked .rd) false 0x7BFF#16 0x4000#16 0#16).1 = true ∧ (masked .rd).ftz = false := by decide +kernel

/-- L6: a tie between 3C01H and 3C02H. -/
theorem witness_NearestRoundingIsNearest :
    (let v := (fma16 (masked .rn) false 0x3C01#16 0x3C00#16 0x1000#16).1
     isFinite v = true ∧ isFinite 0x3C01#16 = true ∧ fpVal 0x3C01#16 ≠ fpVal v ∧
      (exactFma false 0x3C01#16 0x3C00#16 0x1000#16 - fpVal v * 2 ^ 24).natAbs =
        (exactFma false 0x3C01#16 0x3C00#16 0x1000#16 - fpVal 0x3C01#16 * 2 ^ 24).natAbs) := by decide +kernel

/-- L20: 65520 exactly; L22: 65536 exactly; both with OE in some mode. -/
theorem witness_OverflowByRoundingMode :
    exactFma false 0x7BFF#16 0x3C00#16 0x4C00#16 = 65520 * 2 ^ 48 ∧
    exactFma false 0x5C00#16 0x5C00#16 0x0000#16 = 65536 * 2 ^ 48 ∧
    (fma16 (masked .rn) false 0x7BFF#16 0x3C00#16 0x4C00#16).2.oe = true ∧
    (fma16 (masked .rd) false 0x7BFF#16 0x3C00#16 0x4C00#16).2.oe = false ∧
    (fma16 (masked .rz) true 0x5C00#16 0x5C00#16 0x0000#16).2.oe = true := by decide +kernel

/-- L49 and L50, at the boundaries 2^-14 - 2^-26 and 2^-14 - 2^-25, in each mode and with each sign; E4b with UM = 0. -/
theorem witness_UnderflowIsTinyAndInexact :
    (exactFma false 0x0800#16 0x8800#16 0x0400#16 = 2 ^ 34 - 2 ^ 22 ∧
      exactFma false 0x0400#16 0x3BFF#16 0#16 = 2 ^ 34 - 2 ^ 23 ∧
      exactFma true 0x0400#16 0x3BFF#16 0#16 = -(2 ^ 34 - 2 ^ 23)) ∧
    ([RoundMode.rn, .rd, .ru, .rz].map fun rm =>
      ((fma16 (masked rm) false 0x0800#16 0x8800#16 0x0400#16).2.ue, (fma16 (masked rm) true 0x0800#16 0x8800#16 0x8400#16).2.ue,
        (fma16 (masked rm) false 0x0400#16 0x3BFF#16 0#16).2.ue)) =
      [(false, false, true), (true, false, true), (false, true, true), (true, true, true)] ∧
    ((masked .rn).um = true ∧ LaneControl.um { masked .rn with masks := 0x2F#6 } = false ∧
      (fma16 { masked .rn with masks := 0x2F#6 } false 0x0400#16 0x3800#16 0#16).2.ue = true) := by decide +kernel

theorem witness_LaneFlagCombinations :
    (fma16 (masked .rn) false 0x7C00#16 0#16 0x3C00#16).2.ie = true ∧
    (fma16 (masked .rn) false 0x7BFF#16 0x4000#16 0#16).2.oe = true := by decide +kernel

theorem witness_NegationAndFactorSymmetry : isNan 0x3C00#16 = false ∧
    ¬ (isNan 0x3C00#16 = true ∧ isNan 0x7E02#16 = true) ∧
    (masked .rn).nanSelect = .multiplicandMultiplierAddend := by decide +kernel

theorem witness_MultiplyByOneIsIdentity : (masked .rd).daz = false ∧ (masked .rd).ftz = false ∧
    isNan 0x0001#16 = false ∧ isNan 0#16 = false ∧
    (fma16 (masked .rd) false 0#16 0x3C00#16 0x8000#16).1 = 0x8000#16 := by decide +kernel

/-- L41 under DAZ; L43 and L1 under FTZ, with UM = 1 and with UM = 0. -/
theorem witness_DazAndFtzByParameter :
    (let c := { masked .rn with daz := true }
     c.daz = true ∧ fma16 c false 0x0001#16 0x4000#16 0#16 = (0#16, {})) ∧
    (let c := { masked .rn with ftz := true }
     c.daz = false ∧ c.ftz = true ∧ c.um = true ∧
      (fma16 { c with ftz := false, masks := 0#6 } false 0x0400#16 0x3800#16 0#16).2.ue = true ∧
      (fma16 { c with ftz := false, masks := 0#6 } false 0x3C00#16 0x4000#16 0x4200#16).2.ue = false) ∧
    LaneControl.um { masked .rn with ftz := true, masks := 0x2F#6 } = false := by decide +kernel

/-- 1*2 + 3 and 2*2 + 1. -/
theorem witness_ResultDependsOnExactSumOnly : (masked .rn).daz = false ∧
    exactFma false 0x3C00#16 0x4000#16 0x4200#16 = exactFma true 0x4000#16 0xC000#16 0x3C00#16 ∧
    exactFma false 0x3C00#16 0x4000#16 0x4200#16 ≠ 0 ∧
    ([0x3C00#16, 0x4000#16, 0x4200#16, 0xC000#16].all isFinite) = true := by decide +kernel

/-! ### Witnesses: the six instructions -/

/-- The premises of a completion statement. -/
def Premises (f : Form) (lanes : State → Nat → Fp16 × FpFlags) (s : State) : Prop :=
  SimdEnabled f s ∧ OperandReadable f s ∧ NoneUnmasked f s (lanes s)

/-- With every exception masked no lane is unmasked. -/
theorem noneUnmasked_of_masked {f : Form} {s : State} {res : Nat → Fp16 × FpFlags}
    (h : s.mxcsrMasks = BitVec.allOnes 6) : NoneUnmasked f s res := by
  intro _ j _
  simp [h]

theorem premises_reg {f : Form} {lanes : State → Nat → Fp16 × FpFlags} {s : State} {r : VReg} (hsrc : f.src3 = .reg r)
    (hm : s.mxcsrMasks = BitVec.allOnes 6) (he : SimdEnabled f s) : Premises f lanes s :=
  ⟨he, by simp [OperandReadable, hsrc], noneUnmasked_of_masked hm⟩

/-- A memory operand can be read when its check says so. -/
theorem readable_of_status {f : Form} {s : State} {bcst : Bool} {m : MemOperand} (hsrc : f.src3 = .mem bcst m)
    (h : s.operandCanonical f bcst (s.linearAddress f bcst m) = true ∧
      s.loadStatus (s.neededBytes f bcst (s.linearAddress f bcst m)) = .ok) : OperandReadable f s := by
  simp only [OperandReadable, hsrc]
  exact ⟨h.1, (s.loadStatus_eq_ok _).1 h.2⟩

theorem premises_mem {f : Form} {lanes : State → Nat → Fp16 × FpFlags} {s : State} {bcst : Bool} {m : MemOperand}
    (hsrc : f.src3 = .mem bcst m) (hm : s.mxcsrMasks = BitVec.allOnes 6) (he : SimdEnabled f s)
    (h : s.operandCanonical f bcst (s.linearAddress f bcst m) = true ∧
      s.loadStatus (s.neededBytes f bcst (s.linearAddress f bcst m)) = .ok) : Premises f lanes s :=
  ⟨he, readable_of_status hsrc h, noneUnmasked_of_masked hm⟩

def ready : State := v1 0x1F80 0x08 0x98
def er1 : ErForm := ⟨[], 1, 2, 3, .none, .rd⟩
def regs1 : PlainForm := ⟨[], 1, 2, .reg 3, .none⟩
def mem1 : PlainForm := ⟨[], 1, 2, .mem false (.baseDisp false 3 .none), .merge 1⟩
def bcst1 : PlainForm := ⟨[], 1, 2, .mem true (.baseDisp false 3 .none), .zero 1⟩

theorem witness_Vfmadd132Completes :
    Premises (erForm .d132 false er1) (lanes132 false (erForm .d132 false er1)) ready ∧
    Premises (plainForm .d132 false .v128 regs1) (lanes132 false (plainForm .d132 false .v128 regs1)) ready ∧ Premises (plainForm .d132 false .v256 regs1) (lanes132 false (plainForm .d132 false .v256 regs1)) ready ∧
    Premises (plainForm .d132 false .v512 regs1) (lanes132 false (plainForm .d132 false .v512 regs1)) ready ∧
    Premises (plainForm .d132 false .v128 mem1) (lanes132 false (plainForm .d132 false .v128 mem1)) (pageEdge 0x1F80 0x0F) ∧
    Premises (plainForm .d132 false .v512 bcst1) (lanes132 false (plainForm .d132 false .v512 bcst1)) (pageEdge 0x1F80 0x80000000) :=
  ⟨premises_reg rfl (by decide +kernel) (by unfold SimdEnabled; decide +kernel), premises_reg rfl (by decide +kernel) (by unfold SimdEnabled; decide +kernel),
    premises_reg rfl (by decide +kernel) (by unfold SimdEnabled; decide +kernel), premises_reg rfl (by decide +kernel) (by unfold SimdEnabled; decide +kernel),
    premises_mem rfl (by decide +kernel) (by unfold SimdEnabled; decide +kernel) (by decide +kernel),
    premises_mem rfl (by decide +kernel) (by unfold SimdEnabled; decide +kernel) (by decide +kernel)⟩

theorem witness_Vfmadd213Completes :
    Premises (erForm .d213 false er1) (lanes213 false (erForm .d213 false er1)) ready ∧
    Premises (plainForm .d213 false .v128 regs1) (lanes213 false (plainForm .d213 false .v128 regs1)) ready ∧ Premises (plainForm .d213 false .v256 regs1) (lanes213 false (plainForm .d213 false .v256 regs1)) ready ∧
    Premises (plainForm .d213 false .v512 regs1) (lanes213 false (plainForm .d213 false .v512 regs1)) ready ∧
    Premises (plainForm .d213 false .v128 mem1) (lanes213 false (plainForm .d213 false .v128 mem1)) (pageEdge 0x1F80 0x0F) ∧
    Premises (plainForm .d213 false .v512 bcst1) (lanes213 false (plainForm .d213 false .v512 bcst1)) (pageEdge 0x1F80 0x80000000) :=
  ⟨premises_reg rfl (by decide +kernel) (by unfold SimdEnabled; decide +kernel), premises_reg rfl (by decide +kernel) (by unfold SimdEnabled; decide +kernel),
    premises_reg rfl (by decide +kernel) (by unfold SimdEnabled; decide +kernel), premises_reg rfl (by decide +kernel) (by unfold SimdEnabled; decide +kernel),
    premises_mem rfl (by decide +kernel) (by unfold SimdEnabled; decide +kernel) (by decide +kernel),
    premises_mem rfl (by decide +kernel) (by unfold SimdEnabled; decide +kernel) (by decide +kernel)⟩

theorem witness_Vfmadd231Completes :
    Premises (erForm .d231 false er1) (lanes231 false (erForm .d231 false er1)) ready ∧
    Premises (plainForm .d231 false .v128 regs1) (lanes231 false (plainForm .d231 false .v128 regs1)) ready ∧ Premises (plainForm .d231 false .v256 regs1) (lanes231 false (plainForm .d231 false .v256 regs1)) ready ∧
    Premises (plainForm .d231 false .v512 regs1) (lanes231 false (plainForm .d231 false .v512 regs1)) ready ∧
    Premises (plainForm .d231 false .v128 mem1) (lanes231 false (plainForm .d231 false .v128 mem1)) (pageEdge 0x1F80 0x0F) ∧
    Premises (plainForm .d231 false .v512 bcst1) (lanes231 false (plainForm .d231 false .v512 bcst1)) (pageEdge 0x1F80 0x80000000) :=
  ⟨premises_reg rfl (by decide +kernel) (by unfold SimdEnabled; decide +kernel), premises_reg rfl (by decide +kernel) (by unfold SimdEnabled; decide +kernel),
    premises_reg rfl (by decide +kernel) (by unfold SimdEnabled; decide +kernel), premises_reg rfl (by decide +kernel) (by unfold SimdEnabled; decide +kernel),
    premises_mem rfl (by decide +kernel) (by unfold SimdEnabled; decide +kernel) (by decide +kernel),
    premises_mem rfl (by decide +kernel) (by unfold SimdEnabled; decide +kernel) (by decide +kernel)⟩

theorem witness_Vfnmadd132Completes :
    Premises (erForm .d132 true er1) (lanes132 true (erForm .d132 true er1)) ready ∧
    Premises (plainForm .d132 true .v128 regs1) (lanes132 true (plainForm .d132 true .v128 regs1)) ready ∧ Premises (plainForm .d132 true .v256 regs1) (lanes132 true (plainForm .d132 true .v256 regs1)) ready ∧
    Premises (plainForm .d132 true .v512 regs1) (lanes132 true (plainForm .d132 true .v512 regs1)) ready ∧
    Premises (plainForm .d132 true .v128 mem1) (lanes132 true (plainForm .d132 true .v128 mem1)) (pageEdge 0x1F80 0x0F) ∧
    Premises (plainForm .d132 true .v512 bcst1) (lanes132 true (plainForm .d132 true .v512 bcst1)) (pageEdge 0x1F80 0x80000000) :=
  ⟨premises_reg rfl (by decide +kernel) (by unfold SimdEnabled; decide +kernel), premises_reg rfl (by decide +kernel) (by unfold SimdEnabled; decide +kernel),
    premises_reg rfl (by decide +kernel) (by unfold SimdEnabled; decide +kernel), premises_reg rfl (by decide +kernel) (by unfold SimdEnabled; decide +kernel),
    premises_mem rfl (by decide +kernel) (by unfold SimdEnabled; decide +kernel) (by decide +kernel),
    premises_mem rfl (by decide +kernel) (by unfold SimdEnabled; decide +kernel) (by decide +kernel)⟩

theorem witness_Vfnmadd213Completes :
    Premises (erForm .d213 true er1) (lanes213 true (erForm .d213 true er1)) ready ∧
    Premises (plainForm .d213 true .v128 regs1) (lanes213 true (plainForm .d213 true .v128 regs1)) ready ∧ Premises (plainForm .d213 true .v256 regs1) (lanes213 true (plainForm .d213 true .v256 regs1)) ready ∧
    Premises (plainForm .d213 true .v512 regs1) (lanes213 true (plainForm .d213 true .v512 regs1)) ready ∧
    Premises (plainForm .d213 true .v128 mem1) (lanes213 true (plainForm .d213 true .v128 mem1)) (pageEdge 0x1F80 0x0F) ∧
    Premises (plainForm .d213 true .v512 bcst1) (lanes213 true (plainForm .d213 true .v512 bcst1)) (pageEdge 0x1F80 0x80000000) :=
  ⟨premises_reg rfl (by decide +kernel) (by unfold SimdEnabled; decide +kernel), premises_reg rfl (by decide +kernel) (by unfold SimdEnabled; decide +kernel),
    premises_reg rfl (by decide +kernel) (by unfold SimdEnabled; decide +kernel), premises_reg rfl (by decide +kernel) (by unfold SimdEnabled; decide +kernel),
    premises_mem rfl (by decide +kernel) (by unfold SimdEnabled; decide +kernel) (by decide +kernel),
    premises_mem rfl (by decide +kernel) (by unfold SimdEnabled; decide +kernel) (by decide +kernel)⟩

theorem witness_Vfnmadd231Completes :
    Premises (erForm .d231 true er1) (lanes231 true (erForm .d231 true er1)) ready ∧
    Premises (plainForm .d231 true .v128 regs1) (lanes231 true (plainForm .d231 true .v128 regs1)) ready ∧ Premises (plainForm .d231 true .v256 regs1) (lanes231 true (plainForm .d231 true .v256 regs1)) ready ∧
    Premises (plainForm .d231 true .v512 regs1) (lanes231 true (plainForm .d231 true .v512 regs1)) ready ∧
    Premises (plainForm .d231 true .v128 mem1) (lanes231 true (plainForm .d231 true .v128 mem1)) (pageEdge 0x1F80 0x0F) ∧
    Premises (plainForm .d231 true .v512 bcst1) (lanes231 true (plainForm .d231 true .v512 bcst1)) (pageEdge 0x1F80 0x80000000) :=
  ⟨premises_reg rfl (by decide +kernel) (by unfold SimdEnabled; decide +kernel), premises_reg rfl (by decide +kernel) (by unfold SimdEnabled; decide +kernel),
    premises_reg rfl (by decide +kernel) (by unfold SimdEnabled; decide +kernel), premises_reg rfl (by decide +kernel) (by unfold SimdEnabled; decide +kernel),
    premises_mem rfl (by decide +kernel) (by unfold SimdEnabled; decide +kernel) (by decide +kernel),
    premises_mem rfl (by decide +kernel) (by unfold SimdEnabled; decide +kernel) (by decide +kernel)⟩

/-- The premises also hold with every exception unmasked, when the lanes are exact: V9's operands. -/
theorem witness_completes_unmasked :
    (let s := eRow 0 0x08 [] 0x3C00 0x3C00
     let f := plainForm .d132 false .v128 regs1
     ((List.range 8).all fun j => (lanes132 false f s j).2.bits &&& ~~~s.mxcsrMasks == 0#6) = true ∧
       s.mxcsrMasks = 0#6) := by decide +kernel

/-! ### Witnesses: what an instruction writes -/

/-- The instruction of the E rows. -/
def i132 : Instr := .vfmadd132ph128 regs1

/-- E1b. -/
def unmaskedNan : State := eRow 0x1F00 0x08 [0x3C00, 0x3C00, 0x7D00] 0x3C00 0x3C00

theorem witness_UpperBitsZeroedOnCompletion :
    (ready.raised = none ∧ ∃ t, exec i132 ready = .next t ∧ (t.raised == none) = true) ∧
    (unmaskedNan.raised = none ∧ ∃ t, exec i132 unmaskedNan = .next t ∧ (t.raised != none) = true) :=
  ⟨⟨by decide +kernel, nextIs_elim (by decide +kernel)⟩, by decide +kernel, nextIs_elim (by decide +kernel)⟩

theorem witness_MxcsrFlagsAreSticky :
    (∃ t, exec i132 ready = .next t ∧ (t.mxcsr == 0x1FA0#32) = true) ∧
    (∃ t, exec (.vfmadd132phEr er1) ready = .next t ∧ (t.mxcsr == 0x1F80#32) = true) ∧
    (Instr.vfmadd132phEr er1).form.er ≠ none :=
  ⟨nextIs_elim (by decide +kernel), nextIs_elim (by decide +kernel), by decide⟩

theorem witness_SourceRegistersUnchanged : ∃ t, exec i132 ready = .next t ∧ (t.zmmAt 1 != ready.zmmAt 1) = true :=
  nextIs_elim (by decide +kernel)

theorem witness_RipAdvancesOrStays :
    (ready.raised = none ∧ ∃ t, exec i132 ready = .next t ∧ (t.rip == 0x401006#64) = true) ∧
    (∃ t, exec i132 unmaskedNan = .next t ∧ (t.rip == 0x401000#64) = true) :=
  ⟨⟨by decide +kernel, nextIs_elim (by decide +kernel)⟩, nextIs_elim (by decide +kernel)⟩

/-- An instruction with an xmmword at [rbx]. -/
def iMem : Instr := .vfmadd132ph128 ⟨[], 1, 2, .mem false (.baseDisp false 3 .none), .none⟩

/-- The same with rbp and a displacement of 0. -/
def iStack : Instr := .vfmadd132ph128 ⟨[], 1, 2, .mem false (.baseDisp false 5 (.d8 0)), .none⟩

/-- Each exception. -/
theorem witness_RaisedExceptionIsPrecise :
    (∃ t, exec i132 State.reset = .next t ∧ (t.raised == some .ud) = true) ∧
    (∃ t, exec i132 { ready with cr0 := 9 } = .next t ∧ (t.raised == some .nm) = true) ∧
    (∃ t, exec iMem (atBase [] 0x800000000000) = .next t ∧ (t.raised == some .gp) = true) ∧
    (∃ t, exec iStack (atBase [] 0x800000000000) = .next t ∧ (t.raised == some .ss) = true) ∧
    (∃ t, exec iMem (pageEdge 0x1F80 0) = .next t ∧ (t.raised == some (.pf 4 0x2000)) = true) ∧
    (∃ t, exec i132 unmaskedNan = .next t ∧ (t.raised == some .xm) = true) ∧
    (∃ t, exec i132 { unmaskedNan with cr4 := 0x40000 } = .next t ∧ (t.raised == some .ud) = true) :=
  ⟨nextIs_elim (by decide +kernel), nextIs_elim (by decide +kernel), nextIs_elim (by decide +kernel),
    nextIs_elim (by decide +kernel), nextIs_elim (by decide +kernel), nextIs_elim (by decide +kernel),
    nextIs_elim (by decide +kernel)⟩

/-- A completing step, and one that changes CR2 (M2). -/
theorem witness_StepLeavesSystemStateAlone : (∃ t, step ready = .next t ∧ (t != ready) = true) ∧
    ∃ t, step (pageEdge 0x1F80 0x1F) = .next t ∧ (t.cr2 != State.cr2 (pageEdge 0x1F80 0x1F)) = true :=
  ⟨nextIs_elim (by decide +kernel), nextIs_elim (by decide +kernel)⟩

/-! ### Witnesses: masking -/

/-- What holds of the listed active lanes holds of all. -/
theorem forall_active {f : Form} {s : State} {p : Nat → Prop} (h : ∀ j ∈ s.activeLanes f, p j) :
    ∀ j, Active f s j → p j := fun j hj => h j ((s.mem_activeLanes f j).2 hj)

/-- A listed lane is active. -/
theorem active_of {f : Form} {s : State} {j : Nat} (h : j ∈ s.activeLanes f) : Active f s j :=
  (s.mem_activeLanes f j).1 h

/-- A mask of zeros in the low KL bits, over a page that does not translate. -/
theorem witness_FullyMaskedMemoryFormCompletes :
    (let s := withGpr 3 0x2000 (pageEdge 0 0xFFFFFFFFFFFFFF00)
     let f := plainForm .d132 false .v128 mem1
     SimdEnabled f s ∧ s.operandCanonical f false (s.linearAddress f false (.baseDisp false 3 .none)) = true ∧
      ∀ j, ¬ Active f s j) :=
  ⟨by unfold SimdEnabled; decide +kernel, by decide +kernel, forall_active (p := fun _ => False) (by decide +kernel)⟩

/-- k1 differs above bit 7 under a mask, and every opmask register without one. -/
theorem witness_MaskBitsAboveLanesIgnored :
    (let s := pageEdge 0x1F80 0x0F
     let kv := (withK 1 0xFFFFFFFFFFFFFF0F s).k
     kv ≠ s.k ∧ ∀ (k : KReg) (j : Nat), ((mkPlain .d132 false .v128 mem1).form.mask = .merge k ∨
        (mkPlain .d132 false .v128 mem1).form.mask = .zero k) → j < (mkPlain .d132 false .v128 mem1).form.vl.lanes →
      (kv[k.toNat]'k.isLt).getLsbD j = (s.k[k.toNat]'k.isLt).getLsbD j) ∧
    i132.form.mask = .none := by
  refine ⟨⟨by decide +kernel, fun k j hk hj => ?_⟩, rfl⟩
  obtain rfl : k = 1 := by rcases hk with hk | hk <;> cases hk; rfl
  revert j
  decide +kernel

/-- Lane 0 of xmm3 is inactive (V5). -/
theorem witness_InactiveSourceLanesIgnored :
    (let s := withK 3 0x5A (v1 0x1F00 0x0B 0xAC)
     let f := plainForm .d213 true .v128 ⟨[], 1, 2, .reg 3, .merge 3⟩
     let v := vec [0x7D00, 0x3C00, 0x3C00, 0x4000, 0x4200, 0x4400, 0x5640, 0x8000] 0
     (3 : VReg) ≠ f.dest ∧ v ≠ s.zmmAt 3 ∧ ∀ j, Active f s j → lane v j = lane (s.zmmAt 3) j) :=
  ⟨by decide, by decide +kernel, forall_active (by decide +kernel)⟩

/-! ### Witnesses: SIMD floating-point exceptions -/

/-- E1b (IE in lane 2) and E3c (OE in lane 1, after masked DE). -/
theorem witness_UnmaskedLaneRaises :
    (SimdEnabled i132.form unmaskedNan ∧ OperandReadable i132.form unmaskedNan ∧ Active i132.form unmaskedNan 2 ∧
      (lanesOf i132.form unmaskedNan 2).2.bits &&& ~~~unmaskedNan.mxcsrMasks ≠ 0#6) ∧
    (let s := eRow 0x1B80 0x08 [0x0001, 0x7BFF] 0 0x4000
     SimdEnabled i132.form s ∧ OperandReadable i132.form s ∧ Active i132.form s 1 ∧
      (lanesOf i132.form s 1).2.bits &&& ~~~s.mxcsrMasks ≠ 0#6) := by
  unfold SimdEnabled
  exact ⟨⟨by decide +kernel, trivial, active_of (by decide +kernel), by decide +kernel⟩, by decide +kernel, trivial,
    active_of (by decide +kernel), by decide +kernel⟩

/-- E3b (DE unmasked in lane 0) and E3c (no lane's IE or DE unmasked). -/
theorem witness_FlagsReportedByPhase :
    (let s := eRow 0x1E80 0x08 [0x0001, 0x7BFF] 0 0x4000
     SimdEnabled i132.form s ∧ OperandReadable i132.form s ∧ (∃ t, exec i132 s = .next t ∧ (t.raised == some .xm) = true) ∧
      ∃ j, Active i132.form s j ∧ (lanesOf i132.form s j).2.pre.bits &&& ~~~s.mxcsrMasks ≠ 0#6) ∧
    (let s := eRow 0x1B80 0x08 [0x0001, 0x7BFF] 0 0x4000
     SimdEnabled i132.form s ∧ OperandReadable i132.form s ∧ (∃ t, exec i132 s = .next t ∧ (t.raised == some .xm) = true) ∧
      ∀ j, Active i132.form s j → (lanesOf i132.form s j).2.pre.bits &&& ~~~s.mxcsrMasks = 0#6) := by
  refine ⟨⟨by unfold SimdEnabled; decide +kernel, trivial, nextIs_elim (by decide +kernel), 0,
    active_of (by decide +kernel), by decide +kernel⟩, by unfold SimdEnabled; decide +kernel, trivial,
    nextIs_elim (by decide +kernel), forall_active (by decide +kernel)⟩

theorem witness_EmbeddedRoundingSuppressesExceptions :
    (Instr.vfmadd132phEr er1).form.er ≠ none ∧ SimdEnabled (Instr.vfmadd132phEr er1).form (v1 0 0x38 0x98) :=
  ⟨by decide, by unfold SimdEnabled; decide +kernel⟩

/-- MXCSR = 3F80H: RC = 01b is RD, every exception masked; and the other codes of bits 14:13 (R16). -/
theorem witness_EmbeddedRoundingEqualsMxcsrRounding :
    (let s := v1 0x3F80 0x38 0x98
     SimdEnabled (erForm .d132 false er1) s ∧ s.raised = none ∧ er1.rc = .rd ∧ s.mxcsr.getLsbD 14 = false ∧
      s.mxcsr.getLsbD 13 = true ∧ ∀ b, 7 ≤ b → b ≤ 12 → s.mxcsr.getLsbD b = true) ∧
    ([0x1F80, 0x3F80, 0x5F80, 0x7F80].map fun mx => (v1 mx 0x38 0x98).mxcsrRc) = [.rn, .rd, .ru, .rz] := by
  refine ⟨⟨by unfold SimdEnabled; decide +kernel, by decide +kernel, rfl, by decide +kernel, by decide +kernel,
    fun b h1 h2 => ?_⟩, by decide +kernel⟩
  revert h1
  revert b
  decide +kernel

theorem witness_RestartAfterSimdException :
    unmaskedNan.raised = none ∧ ∃ t, exec i132 unmaskedNan = .next t ∧ (t.raised == some .xm) = true :=
  ⟨by decide +kernel, nextIs_elim (by decide +kernel)⟩

/-! ### Witnesses: the checks before the lanes -/

/-- CR0.PE = 0 (after reset) and RFLAGS.VM = 1. -/
theorem witness_DisabledFormsRaiseUd :
    State.reset.cr0.getLsbD 0 = false ∧ (State.rflags { ready with rflags := 0x20002 }).getLsbD 17 = true := by
  decide +kernel

/-- Each disjunct that needs 64-bit mode: DU11, DU12, DU13 and the AVX512F flag. -/
theorem witness_DisabledFormsRaiseUd_64 : ready.in64BitMode = true ∧
    State.in64BitMode { ready with cr4 := 0 } = true ∧ State.in64BitMode { ready with xcr0 := 1 } = true ∧
    (State.xcr0 { ready with xcr0 := 7 }).extractLsb' 5 3 ≠ 7#3 ∧ (State.xcr0 { ready with xcr0 := 0xE1 }).extractLsb' 1 2 ≠ 3#2 ∧
    ([{ specDefaults with hasAvx512Vl := false }, { specDefaults with hasAvx512f := false },
      { specDefaults with hasAvx512Fp16 := false }].all fun c => State.in64BitMode { ready with config := c }) = true ∧
    i132.form.vl ≠ .v512 := by decide +kernel

theorem witness_TaskSwitchedRaisesNm :
    (let s := { ready with cr0 := 9 }
     s.in64BitMode = true ∧ s.config.hasAvx512f = true ∧ s.config.hasAvx512Fp16 = true ∧ s.config.hasAvx512Vl = true ∧
      s.osEnabled = true ∧ s.cr0.getLsbD 3 = true) := by decide +kernel

/-- The last byte of an operand, the RBP base, and the SS and DS overrides. -/
theorem witness_NonCanonicalOperandRaises :
    (let s := atBase [] 0x7FFFFFFFFFF1
     SimdEnabled iMem.form s ∧ 15 < operandSize iMem.form.vl false ∧
      s.canonical (s.linearAddress iMem.form false (.baseDisp false 3 .none) + BitVec.ofNat 64 14) = true ∧
      s.canonical (s.linearAddress iMem.form false (.baseDisp false 3 .none) + BitVec.ofNat 64 15) = false) ∧
    (let s := atBase [] 0x800000000000
     SimdEnabled iStack.form s ∧ 0 < operandSize iStack.form.vl false ∧
      s.canonical (s.linearAddress iStack.form false (.baseDisp false 5 (.d8 0)) + BitVec.ofNat 64 0) = false) ∧
    (segOverride iMem.form.pfx = none ∧ stackBase (.baseDisp false 3 .none) = false) ∧
    (segOverride iStack.form.pfx = none ∧ stackBase (.baseDisp false 5 (.d8 0)) = true) ∧
    segOverride [.ds, .addr32, .ss] = some .ss ∧ segOverride [.ss, .ds] = some .ds :=
  ⟨⟨by unfold SimdEnabled; decide +kernel, by decide +kernel, by decide +kernel, by decide +kernel⟩,
    ⟨by unfold SimdEnabled; decide +kernel, by decide +kernel, by decide +kernel⟩, by decide +kernel,
    by decide +kernel, by decide +kernel, by decide +kernel⟩

/-- M2: 1FF8H to 2007H are needed and 2000H faults. -/
theorem witness_NeededByteRaisesPageFault :
    (let s := pageEdge 0x1F80 0
     let la := s.linearAddress iMem.form false (.baseDisp false 3 .none)
     SimdEnabled iMem.form s ∧ s.operandCanonical iMem.form false la = true ∧
      0x2000#64 ∈ s.neededBytes iMem.form false la ∧ s.translate .read 0x2000#64 = .pageFault 4) ∧
    (∃ t, exec iMem (pageEdge 0x1F80 0) = .next t ∧ (t.raised == some (.pf 4 0x2000)) = true) :=
  ⟨⟨by unfold SimdEnabled; decide +kernel, by decide +kernel, by decide +kernel, by decide +kernel⟩,
    nextIs_elim (by decide +kernel)⟩

/-- The bytes that iMem needs. -/
def need (s : State) : List Addr := s.neededBytes iMem.form false (s.linearAddress iMem.form false (.baseDisp false 3 .none))

/-- The operand of iMem is canonical. -/
def canonicalAt (s : State) : Bool :=
  s.operandCanonical iMem.form false (s.linearAddress iMem.form false (.baseDisp false 3 .none))

/-- 5000H to 500FH, of which 5008H to 500FH are device memory. -/
def onDevice : State := { atBase [] 0x5000 with devices := [⟨0x5008, 0x5FFF⟩] }

/-- An operand with bytes in device memory and bytes that memory does not hold (log 27), and one that memory does not hold
at all. -/
theorem witness_DeviceAndAbsentOperandsStop :
    (SimdEnabled iMem.form onDevice ∧ canonicalAt onDevice = true ∧ onDevice.lowestFault (need onDevice) = none ∧ (need onDevice).contains 0x500F#64 = true ∧
      onDevice.readByte .read 0x500F#64 = .device ∧ (need onDevice).contains 0x5000#64 = true ∧
      onDevice.readByte .read 0x5000#64 = .absent ∧ refusedIs (exec iMem onDevice) .deviceMemory = true) ∧
    (SimdEnabled iMem.form (atBase [] 0x5000) ∧ canonicalAt (atBase [] 0x5000) = true ∧ (atBase [] 0x5000).lowestFault (need (atBase [] 0x5000)) = none ∧
      ((need (atBase [] 0x5000)).all fun a => (atBase [] 0x5000).readByte .read a == .absent) = true) :=
  ⟨⟨by unfold SimdEnabled; decide +kernel, by decide +kernel, by decide +kernel, by decide +kernel, by decide +kernel⟩,
    by unfold SimdEnabled; decide +kernel, by decide +kernel, by decide +kernel, by decide +kernel⟩

/-- Device bytes that are all masked off are not needed (log 17). -/
theorem test_masked_device_bytes :
    (let s := { pageEdge 0x1F80 0x0F with translation := [], devices := [⟨0x2000, 0x2FFF⟩] }
     seen (step s) 1 = seen (step (pageEdge 0x1F80 0x0F)) 1 ∧ (seen (step s) 1).length = 35) := by decide +kernel

theorem witness_AlignmentCheckNeverRaised : ∃ t, step unmaskedNan = .next t ∧ (t.raised == some .xm) = true :=
  nextIs_elim (by decide +kernel)

theorem witness_PrivilegeLevelDoesNotMatter : ∀ r ∈ (pageEdge 0x1F80 0x0F).translation, r.cpl = none := by decide +kernel

/-! ### Witnesses: memory operands -/

theorem witness_ElementsAreLittleEndian :
    (let s := pageEdge 0x1F80 0x0F
     s.readByte .read (0x1FF8#64 + BitVec.ofNat 64 (2 * 3)) = .byte 0x00 ∧
      s.readByte .read (0x1FF8#64 + BitVec.ofNat 64 (2 * 3 + 1)) = .byte 0x44) := by decide +kernel

/-- DV28, [rsp] by a SIB byte without index, and DV29, [r12 + r9*4 - 64] (disp8*N: -2 * 32). -/
theorem test_sib_addresses :
    (let s := withGpr 12 0x5000 (withGpr 9 0x10 (withGpr 4 0x3000 ready))
     s.linearAddress (plainForm .d213 true .v512 ⟨[], 1, 2, .mem false (.sib 4 4 0 .none), .none⟩) false (.sib 4 4 0 .none) =
       0x3000#64 ∧
     s.linearAddress (plainForm .d213 false .v256 ⟨[], 8, 17, .mem false (.sib 12 9 2 (.d8 0xFE)), .none⟩) false
       (.sib 12 9 2 (.d8 0xFE)) = 0x5000#64) := by decide +kernel

theorem witness_LinearAddressForms : iMem.form.pfx = [] ∧ (15#4 : Gpr) ≠ 4#4 ∧ hasAddr32 [.fs, .addr32] = true ∧
    segOverride [.fs, .addr32] = some .fs ∧ segOverride [.fs, .gs] = some .gs ∧ segOverride [.ss] ≠ some .fs ∧
    segOverride [.ss] ≠ some .gs := by decide

/-- zmm3 holds the four elements that M2 reads under k1 = 0FH. -/
theorem witness_MemoryFormActsAsRegisterForm :
    (let s := (pageEdge 0x1F80 0x0F).setZmm 3 ⟨vec [0x3C00, 0x4000, 0x4200, 0x4400] 0x7D00, 0⟩
     let f := plainForm .d132 false .v128 mem1
     ((3 : VReg).toNat < s.config.nVec ∧ SimdEnabled f s ∧ OperandReadable f s) ∧
      (∀ j, Active f s j → lane (s.zmmAt 3) j =
        s.element (elementAddress false (s.linearAddress f false (.baseDisp false 3 .none)) j)) ∧
      ∃ t, exec (mkPlain .d132 false .v128 mem1) s = .next t ∧ (t.raised == none) = true) := by
  exact ⟨⟨by decide +kernel, by unfold SimdEnabled; decide +kernel, readable_of_status rfl (by decide +kernel)⟩,
    forall_active (by decide +kernel), nextIs_elim (by decide +kernel)⟩

/-! ### Witnesses: the machine -/

/-- The launch with other parameters of R7. -/
def withConfig (c : Config) : State := { ready with config := c }

/-- LMA = 0 and CS.L = 0; and parameters that leave a register or mask bits out. -/
theorem witness_OtherModesRefused :
    (ready.cr0.getLsbD 0 = true ∧ ready.rflags.getLsbD 17 = false ∧ ready.raised = none ∧
      (State.efer { ready with efer := 0 }).getLsbD 10 = false ∧ State.csL { ready with csL := false } = false) ∧
    (ready.in64BitMode = true ∧ ready.osEnabled = true ∧ ready.cr0.getLsbD 3 = false ∧
      ([{ specDefaults with nVec := 3 }, { specDefaults with nMask := 1 }, { specDefaults with maskWidth := 7 }].all fun c =>
        refusedIs (exec (.vfmadd132ph128 ⟨[], 1, 2, .reg 3, .merge 1⟩) (withConfig c)) .registerAbsent) = true) := by
  decide +kernel

/-- MAXVL = 1024: the bits from VL up to it become 0 (R86). -/
theorem test_wide_register :
    (let s := (withConfig { specDefaults with extraVl := 512 }).setZmm 1 ⟨vec [] 0x3C00, 2 ^ 512 - 1⟩
     regBit (s.zmmReg 1) 1023 = true ∧ nextIs (exec i132 s) (fun t => (t.zmmReg 1).high == 0) = true) := by decide +kernel

/-- The next RIP fits, and at the end of the lower canonical half it does not. -/
theorem witness_StepRunsDecodedInstruction :
    (ready.raised = none ∧ ready.launchRefusal = none ∧ ready.atEndOfText ready.fetchAddress = false ∧
      decode ready.fetched.1 = .form i132 ∧ ready.nextRipFits i132.ilen = true) ∧
    (let s := launchAt 0x7FFFFFFFFFFA [0x62, 0xF6, 0x6D, 0x08, 0x98, 0xCB]
     s.launchRefusal = none ∧ s.atEndOfText s.fetchAddress = false ∧
      decode s.fetched.1 = .form i132 ∧ s.nextRipFits i132.ilen = false ∧
      refusedIs (step s) .ripNotCanonical = true) := by decide +kernel

/-- At the launch state and at reset. -/
theorem witness_PlacedWordIsExecuted :
    ([ready, State.reset].all fun s => s.raised == none && s.launchRefusal == none && s.translation == [] &&
      s.devices == [] && ((List.range 16).all fun k => s.canonical (s.fetchAddress + BitVec.ofNat 64 k)) &&
      decide (s.fetchAddress.toNat + maxInstrLen < 2 ^ 64)) = true ∧
    decodeTableWord 48 0xCB98086DF662 = some i132 := by decide +kernel

theorem witness_RunEndsAtExceptionOrEndOfText :
    State.raised { ready with raised := some .xm } = some .xm ∧
    (State.reset.raised = none ∧ State.reset.launchRefusal = none ∧
      State.reset.fetchAddress = State.reset.text.start + BitVec.ofNat 64 State.reset.text.size) := by decide +kernel

/-- RIP outside the text, a text that ends inside an instruction, a non-canonical instruction byte, RFLAGS.TF, and a reserved MXCSR bit. -/
theorem witness_RunEndsAtExceptionOrEndOfText_refusals :
    (let s := { ready with rip := 0x500000 }
     s.launchRefusal = none ∧ s.fetchAddress ≠ s.text.start + BitVec.ofNat 64 s.text.size ∧
      s.text.size ≤ (s.fetchAddress - s.text.start).toNat) ∧
    (let s := launch 0x1F80 [0x62, 0xF6, 0x6D, 0x08, 0x98]
     s.launchRefusal = none ∧ s.atEndOfText s.fetchAddress = false ∧
      s.fetched = ([0x62, 0xF6, 0x6D, 0x08, 0x98], .beyondText) ∧ decode s.fetched.1 = .truncated true ∧
      s.nextRipFits (shapeLength s.fetched.1) = true ∧
      refusedIs (step s) .beyondProgramText = true) ∧
    (let s := launchAt 0x7FFFFFFFFFFC [0x62, 0xF6, 0x6D, 0x08, 0x98, 0xCB]
     steppable s = true ∧ s.fetched = ([0x62, 0xF6, 0x6D, 0x08], .nonCanonical) ∧ decode s.fetched.1 = .truncated false ∧
      refusedIs (step s) .ripNotCanonical = true) ∧
    (let s := { ready with rflags := 0x102 }
     s.in64BitMode = true ∧ s.rflags.getLsbD 8 = true ∧ refusedIs (step s) .singleStepArmed = true) ∧
    (let s := launch 0x11F80 []
     s.in64BitMode = true ∧ s.rflags.getLsbD 8 = false ∧ s.mxcsr.extractLsb' 16 16 ≠ 0#16 ∧
      refusedIs (step s) .mxcsrReserved = true) := by decide +kernel

/-- Registers whose upper part is 0 lie within MAXVL. -/
theorem regs_within {s : State} (h : ∀ r : VReg, (s.zmmReg r).high = 0) (r : VReg) (b : Nat) (hb : s.config.maxVl ≤ b) :
    regBit (s.zmmReg r) b = false := by
  have hn : ¬ b < 512 := by simp only [Config.maxVl] at hb; omega
  simp [regBit, hn, h]

theorem witness_StepKeepsInvariant : Inv (pageEdge 0x1F80 0x1F) ∧
    ∃ t, step (pageEdge 0x1F80 0x1F) = .next t ∧ (t.cr2 == 0x2000#64) = true :=
  ⟨⟨by decide +kernel, regs_within (by decide +kernel), by decide +kernel, by decide +kernel, fun code la h => by cases h⟩,
    nextIs_elim (by decide +kernel)⟩

end Sys2Proof.Tests
end

/-!
The checks of `ExecPacked` that come before any operand (60_exceptions.md R131, R139; 00_scope.md R4, R7): what each test of
the state says of the bits and flags it reads, what `execPacked` answers when the test fails, and from these the statements
about disabled forms and refused launches.
-/

namespace Sys2Proof.Machine

open Sys2Proof

/-! ### The tests, by the bits and flags they read -/

/-- U9. -/
theorem State.realOrVm86_eq_true_iff (s : State) :
    s.realOrVm86 = true ↔ s.cr0.getLsbD 0 = false ∨ s.rflags.getLsbD 17 = true := by
  simp only [State.realOrVm86, State.protectedMode, State.vmFlag, Bool.or_eq_true, Bool.not_eq_true']

theorem State.realOrVm86_eq_false {s : State} (hpe : s.cr0.getLsbD 0 = true) (hvm : s.rflags.getLsbD 17 = false) :
    s.realOrVm86 = false := by
  simp only [State.realOrVm86, State.protectedMode, State.vmFlag, hpe, hvm, Bool.not_true, Bool.or_false]

theorem State.realOrVm86_of_in64BitMode {s : State} (h : s.in64BitMode = true) : s.realOrVm86 = false := by
  simp only [State.in64BitMode, Bool.and_eq_true, Bool.not_eq_true'] at h
  obtain ⟨⟨hr, _⟩, _⟩ := h
  exact hr

theorem State.in64BitMode_eq_false {s : State} (h : s.efer.getLsbD 10 = false ∨ s.csL = false) :
    s.in64BitMode = false := by
  rcases h with hlma | hl
  · simp only [State.in64BitMode, hlma, Bool.and_false, Bool.false_and]
  · simp only [State.in64BitMode, hl, Bool.and_false]

/-- U6, U7, and the AVX512F flag of R22. -/
theorem State.featureMissing_eq_true_iff (s : State) (f : Form) :
    s.featureMissing f = true ↔
      s.config.hasAvx512f = false ∨ s.config.hasAvx512Fp16 = false ∨ (f.vl ≠ .v512 ∧ s.config.hasAvx512Vl = false) := by
  simp [State.featureMissing, or_assoc]

theorem State.featureMissing_eq_false {s : State} {f : Form} (hf : s.config.hasAvx512f = true)
    (hfp : s.config.hasAvx512Fp16 = true) (hvl : f.vl = .v512 ∨ s.config.hasAvx512Vl = true) :
    s.featureMissing f = false := by
  rcases hvl with h | h <;> simp [State.featureMissing, hf, hfp, h]

/-- U8. -/
theorem State.osEnabled_eq_false_iff (s : State) :
    s.osEnabled = false ↔
      s.cr4.getLsbD 18 = false ∨ s.xcr0.extractLsb' 1 2 ≠ 3#2 ∨ s.xcr0.extractLsb' 5 3 ≠ 7#3 := by
  simp only [State.osEnabled, Bool.and_eq_false_iff, beq_eq_false_iff_ne, or_assoc]

/-- The registers and mask bits that a form names (R7), whatever its operand 3 and its masking. -/
theorem State.hasRegisters_iff (s : State) (f : Form) :
    s.hasRegisters f = true ↔
      f.dest.toNat < s.config.nVec ∧ f.src2.toNat < s.config.nVec ∧
      (∀ r, f.src3 = .reg r → r.toNat < s.config.nVec) ∧
      (∀ k, f.mask = .merge k ∨ f.mask = .zero k →
        k.toNat < s.config.nMask ∧ f.vl.lanes ≤ s.config.maskWidth) := by
  cases hsrc : f.src3 <;> cases hmask : f.mask <;> simp [State.hasRegisters, hsrc, hmask, and_assoc]

theorem State.hasRegisters_eq_false {s : State} {f : Form}
    (h : s.config.nVec ≤ f.dest.toNat ∨ s.config.nVec ≤ f.src2.toNat ∨
      (∃ r, f.src3 = .reg r ∧ s.config.nVec ≤ r.toNat) ∨
      (∃ k, (f.mask = .merge k ∨ f.mask = .zero k) ∧
        (s.config.nMask ≤ k.toNat ∨ s.config.maskWidth < f.vl.lanes))) :
    s.hasRegisters f = false := by
  rw [Bool.eq_false_iff, ne_eq, State.hasRegisters_iff]
  rintro ⟨hdest, hsrc2, hsrc3, hmask⟩
  rcases h with h | h | ⟨r, hr, h⟩ | ⟨k, hk, h⟩
  · omega
  · omega
  · have := hsrc3 r hr
    omega
  · have := hmask k hk
    omega

/-! ### What a failed check answers (R139) -/

theorem execPacked_of_realOrVm86 (f : Form) {s : State} (h : s.realOrVm86 = true) :
    execPacked f s = raiseException .ud s := by
  simp [execPacked, h]

theorem execPacked_of_otherMode (f : Form) {s : State} (hr : s.realOrVm86 = false) (hm : s.in64BitMode = false) :
    execPacked f s = .refused .not64BitMode := by
  simp [execPacked, hr, hm]

theorem execPacked_of_disabled {f : Form} {s : State} (hm : s.in64BitMode = true)
    (h : s.featureMissing f = true ∨ s.osEnabled = false) : execPacked f s = raiseException .ud s := by
  have hc : (s.featureMissing f || !s.osEnabled) = true := by simpa using h
  simp [execPacked, State.realOrVm86_of_in64BitMode hm, hm, hc]

theorem execPacked_of_registersAbsent {f : Form} {s : State} (hm : s.in64BitMode = true)
    (hf : s.featureMissing f = false) (hos : s.osEnabled = true) (hts : s.taskSwitched = false)
    (h : s.hasRegisters f = false) : execPacked f s = .refused .registerAbsent := by
  simp [execPacked, State.realOrVm86_of_in64BitMode hm, hm, hf, hos, hts, h]

/-- D1 comes before every other test of a step that has no exception pending. -/
theorem step_of_otherMode {s : State} (hr : s.realOrVm86 = false) (hm : s.in64BitMode = false)
    (hraised : s.raised = none) : step s = .refused .not64BitMode := by
  have hl : s.launchRefusal = some .not64BitMode := by simp [State.launchRefusal, hr, hm]
  simp [step, hraised, hl]

/-! ### The statements -/

/-- Settles O43: each premise makes one of the two #UD checks fail, and raising #UD only records it (R140). -/
theorem disabledFormsRaiseUd : Obligations.DisabledFormsRaiseUd := by
  intro i s h
  have hud : execPacked i.form s = raiseException .ud s := by
    rcases h with hpe | hvm | ⟨hm, hmissing⟩
    · exact execPacked_of_realOrVm86 _ (s.realOrVm86_eq_true_iff.2 (.inl hpe))
    · exact execPacked_of_realOrVm86 _ (s.realOrVm86_eq_true_iff.2 (.inr hvm))
    · refine execPacked_of_disabled hm ?_
      simpa only [State.featureMissing_eq_true_iff, State.osEnabled_eq_false_iff, or_assoc] using hmissing
  rw [exec_eq, hud]
  rfl

/-- Settles O55: `exec` and `step` both refuse another mode before they look at anything else, and an enabled form reaches
the register check. -/
theorem otherModesRefused : Obligations.OtherModesRefused := by
  refine ⟨fun s hpe hvm hnot64 => ?_, fun i s hm hf hfp hvl hos hts habsent => ?_⟩
  · have hr : s.realOrVm86 = false := State.realOrVm86_eq_false hpe hvm
    have hm : s.in64BitMode = false := State.in64BitMode_eq_false hnot64
    exact ⟨fun i => (exec_eq i s).trans (execPacked_of_otherMode _ hr hm), step_of_otherMode hr hm⟩
  · rw [exec_eq]
    exact execPacked_of_registersAbsent hm (State.featureMissing_eq_false hf hfp hvl) hos hts
      (State.hasRegisters_eq_false habsent)

end Sys2Proof.Machine

/-!
What a next state of an instruction or of a step can be, said once, and what each of them keeps: the invariant, the rest of
the machine, and MXCSR but for its sticky flags (10_state.md R10, R16, R17; 20_memory.md R30; 60_exceptions.md R135, R136).
-/

namespace Sys2Proof.Machine

open Sys2Proof

/-! ### The state after reset (R26) -/

@[simp] theorem State.zmmReg_reset (r : VReg) : State.reset.zmmReg r = ⟨0, 0⟩ := by
  simp [State.zmmReg, State.reset]

@[simp] theorem State.kAt_reset (r : KReg) : State.reset.kAt r = 0 := by
  simp [State.kAt, State.reset]

@[simp] theorem State.gprAt_reset (r : Gpr) : State.reset.gprAt r = 0 := by
  simp [State.gprAt, State.reset]

/-! ### MXCSR and CR2 under the writes of an instruction -/

@[simp] theorem FpFlags.bits_empty : FpFlags.empty.bits = 0#6 := rfl

@[simp] theorem State.orFlags_empty (s : State) : s.orFlags .empty = s := by
  simp [State.orFlags, State.setMxcsr]

@[simp] theorem State.complete_mxcsr (s : State) (f : Form) (t3 : Nat → Fp16) (a : FpFlags) :
    (s.complete f t3 a).mxcsr = s.mxcsr ||| a.bits.setWidth 32 := rfl

@[simp] theorem State.complete_rip (s : State) (f : Form) (t3 : Nat → Fp16) (a : FpFlags) :
    (s.complete f t3 a).rip = s.rip + BitVec.ofNat 64 f.ilen := rfl

@[simp] theorem State.complete_raised (s : State) (f : Form) (t3 : Nat → Fp16) (a : FpFlags) :
    (s.complete f t3 a).raised = s.raised := rfl

@[simp] theorem State.complete_cr2 (s : State) (f : Form) (t3 : Nat → Fp16) (a : FpFlags) :
    (s.complete f t3 a).cr2 = s.cr2 := rfl

@[simp] theorem State.complete_mem (s : State) (f : Form) (t3 : Nat → Fp16) (a : FpFlags) :
    (s.complete f t3 a).mem = s.mem := rfl

@[simp] theorem State.complete_config (s : State) (f : Form) (t3 : Nat → Fp16) (a : FpFlags) :
    (s.complete f t3 a).config = s.config := rfl

@[simp] theorem State.complete_zmm (s : State) (f : Form) (t3 : Nat → Fp16) (a : FpFlags) :
    (s.complete f t3 a).zmm = s.zmm.set f.dest.toNat (s.newDest f t3) f.dest.isLt := rfl

@[simp] theorem State.complete_zmmReg_self (s : State) (f : Form) (t3 : Nat → Fp16) (a : FpFlags) :
    (s.complete f t3 a).zmmReg f.dest = s.newDest f t3 := by
  simp [State.complete]

theorem State.complete_zmmReg_other (s : State) {f : Form} (t3 : Nat → Fp16) (a : FpFlags) {r : VReg}
    (h : r ≠ f.dest) : (s.complete f t3 a).zmmReg r = s.zmmReg r := by
  rw [State.complete, State.zmmReg_setRip, State.zmmReg_setZmm_other _ _ h]
  rfl

/-- CR2 after an exception is either what it was or the address of the page fault taken (R135). -/
theorem State.takeException_cr2_cases (s : State) (e : Exception) :
    (s.takeException e).cr2 = s.cr2 ∨ ∃ code la, e = .pf code la ∧ (s.takeException e).cr2 = la := by
  cases e with
  | pf code la => exact .inr ⟨code, la, rfl, rfl⟩
  | _ => exact .inl rfl

/-- R16, R17, R111: bit 2 (ZE) and the bits above 5 are no flag of this family. -/
theorem FpFlags.getLsbD_bits_of_notMem (a : FpFlags) {b : Nat} (hb : b ∉ [0, 1, 3, 4, 5]) :
    a.bits.getLsbD b = false := by
  by_cases h2 : b = 2
  · obtain ⟨ie, de, oe, ue, pe⟩ := a
    subst h2
    revert ie de oe ue pe
    decide
  · exact BitVec.getLsbD_of_ge _ _ (by simp at hb; omega)

/-- R16: the flags lie below the reserved bits. -/
theorem extractLsb'_reserved_or_flags (m : BitVec 32) (a : FpFlags) :
    (m ||| a.bits.setWidth 32).extractLsb' 16 16 = m.extractLsb' 16 16 := by
  apply BitVec.eq_of_getLsbD_eq
  intro i hi
  have hflag : a.bits.getLsbD (16 + i) = false := BitVec.getLsbD_of_ge _ _ (by omega)
  simp [hi, hflag]

/-! ### What a next state can be -/

/-- What an instruction or a step that ORs the flags `a` into MXCSR writes: it raises an exception other than #AC, or it
completes an instruction (R24, R136, R140). -/
inductive Writes (a : FpFlags) (s t : State) : Prop where
  | raised (e : Exception) (notAc : e ≠ .ac) (h : t = (s.orFlags a).takeException e)
  | completed (f : Form) (t3 : Nat → Fp16) (h : t = s.complete f t3 a)

theorem simdException_ne_ac (s : State) : s.simdException ≠ .ac := by
  rw [State.simdException]
  split <;> simp

theorem LanesNext.writes {f : Form} {t3 : Nat → Fp16} {s t : State} (h : LanesNext f t3 s t) :
    ∃ a, Writes a s t ∧ (f.er ≠ none → a = .empty) := by
  cases h with
  | suppressed er h => exact ⟨_, .completed f t3 h, fun _ => rfl⟩
  | raisedPre er u h => exact ⟨_, .raised _ (simdException_ne_ac s) h, fun hne => absurd er hne⟩
  | raisedPost er n u h => exact ⟨_, .raised _ (simdException_ne_ac s) h, fun hne => absurd er hne⟩
  | completed er n m h => exact ⟨_, .completed f t3 h, fun hne => absurd er hne⟩

/-- An exception raised with nothing else changed. -/
theorem Writes.of_takeException {s t : State} {e : Exception} (notAc : e ≠ .ac) (h : t = s.takeException e) :
    Writes .empty s t :=
  .raised e notAc (by rw [State.orFlags_empty]; exact h)

/-- What an instruction writes; no flag under embedded rounding (R89). -/
theorem exec_writes {i : Instr} {s t : State} (h : exec i s = .next t) :
    ∃ a, Writes a s t ∧ (i.form.er ≠ none → a = .empty) := by
  rw [exec_eq] at h
  cases execPacked_cases h with
  | ud c h => exact ⟨_, .of_takeException (by simp) h, fun _ => rfl⟩
  | nm c h => exact ⟨_, .of_takeException (by simp) h, fun _ => rfl⟩
  | address bcst m src c h => exact ⟨_, .of_takeException (by split <;> simp) h, fun _ => rfl⟩
  | pageFault bcst m src la code c h => exact ⟨_, .of_takeException (by simp) h, fun _ => rfl⟩
  | lanes enabled readable h => exact h.writes

/-- How a step can reach a next state (R66, R134, R136): the decoded instruction runs, or the fetch or the decoder raises an
exception, never #AC, with nothing else changed. -/
inductive StepNext (s t : State) : Prop where
  | runs (i : Instr) (h : exec i s = .next t)
  | raises (e : Exception) (notAc : e ≠ .ac) (h : t = s.takeException e)

theorem raiseException_cases {e : Exception} {s t : State} (notAc : e ≠ .ac) (h : raiseException e s = .next t) :
    StepNext s t :=
  .raises e notAc (by simpa [raiseException] using h.symm)

theorem raiseAtDecode_cases {e : Exception} {bs : List Byte} {s t : State} (notAc : e ≠ .ac)
    (h : raiseAtDecode e bs s = .next t) : StepNext s t := by
  rw [raiseAtDecode] at h
  split at h
  · exact raiseException_cases notAc h
  · cases h

theorem fetchFailure_cases {stop : FetchStop} {s t : State} (h : fetchFailure stop s = .next t) : StepNext s t := by
  cases stop with
  | pageFault la code => exact raiseException_cases (by simp) h
  | _ => cases h

theorem execTruncated_cases {family : Bool} {bs : List Byte × FetchStop} {s t : State}
    (h : execTruncated family bs s = .next t) : StepNext s t := by
  rw [execTruncated] at h
  split at h
  · cases h
  · split at h
    · exact fetchFailure_cases h
    · split at h
      · exact raiseException_cases (by simp) h
      · cases h

theorem execDecoded_cases {d : DecodeResult} {bs : List Byte × FetchStop} {s t : State}
    (h : execDecoded d bs s = .next t) : StepNext s t := by
  cases d with
  | form i =>
    rw [execDecoded] at h
    split at h
    · exact .runs i h
    · cases h
  | ud => exact raiseAtDecode_cases (by simp) h
  | gp0 => exact raiseAtDecode_cases (by simp) h
  | notThisFamily => cases h
  | truncated family => exact execTruncated_cases h

/-- The cases of a next state of `step`. -/
theorem step_cases {s t : State} (h : step s = .next t) : StepNext s t := by
  rw [step] at h
  split at h
  · cases h
  · split at h
    · cases h
    · split at h
      · cases h
      · exact execDecoded_cases h

theorem step_writes {s t : State} (h : step s = .next t) : ∃ a, Writes a s t := by
  cases step_cases h with
  | runs i h => exact (exec_writes h).imp fun _ hw => hw.1
  | raises e notAc h => exact ⟨_, .of_takeException notAc h⟩

/-! ### What every write keeps -/

theorem Writes.mxcsr_eq {a : FpFlags} {s t : State} (h : Writes a s t) : t.mxcsr = s.mxcsr ||| a.bits.setWidth 32 := by
  cases h with
  | raised e notAc h => rw [h]; simp
  | completed f t3 h => rw [h, State.complete_mxcsr]

theorem Writes.mem_eq {a : FpFlags} {s t : State} (h : Writes a s t) : t.mem = s.mem := by
  cases h with
  | raised e notAc h => rw [h]; simp
  | completed f t3 h => rw [h, State.complete_mem]

theorem Writes.config_eq {a : FpFlags} {s t : State} (h : Writes a s t) : t.config = s.config := by
  cases h with
  | raised e notAc h => rw [h]; simp
  | completed f t3 h => rw [h, State.complete_config]

theorem Writes.restUnchanged {a : FpFlags} {s t : State} (h : Writes a s t) : RestUnchanged s t := by
  cases h with
  | raised e notAc h =>
    subst h
    simp only [RestUnchanged, State.takeException_k, State.orFlags_k, State.takeException_gpr, State.orFlags_gpr]
    simp
    exact State.readByte_congr (by simp) (by simp) (by simp) (by simp)
  | completed f t3 h =>
    subst h
    exact ⟨rfl, rfl, rfl, rfl, rfl, rfl, rfl, rfl, rfl, rfl, rfl, rfl, rfl, rfl, rfl, rfl,
      State.readByte_congr rfl rfl rfl rfl⟩

/-- R135: CR2 moves only with a raised page fault, to its address. -/
theorem Writes.cr2_cases {a : FpFlags} {s t : State} (h : Writes a s t) :
    t.cr2 = s.cr2 ∨ ∃ code la, t.raised = some (.pf code la) ∧ t.cr2 = la := by
  cases h with
  | raised e notAc h =>
    subst h
    rcases (s.orFlags a).takeException_cr2_cases e with hsame | ⟨code, la, rfl, hla⟩
    · exact .inl hsame
    · exact .inr ⟨code, la, rfl, hla⟩
  | completed f t3 h => exact .inl (by rw [h, State.complete_cr2])

/-- R10, R86: a completed instruction leaves 0 from bit MAXVL on, in the destination as in the others. -/
theorem Writes.within_maxVl {a : FpFlags} {s t : State} (h : Writes a s t)
    (hs : ∀ r b, s.config.maxVl ≤ b → regBit (s.zmmReg r) b = false) (r : VReg) (b : Nat)
    (hb : s.config.maxVl ≤ b) : regBit (t.zmmReg r) b = false := by
  cases h with
  | raised e notAc h =>
    have hz : t.zmmReg r = s.zmmReg r := by simp [h, State.zmmReg]
    rw [hz]
    exact hs r b hb
  | completed f t3 h =>
    subst h
    by_cases hr : r = f.dest
    · have hb512 : ¬ b < 512 := by simp only [Config.maxVl] at hb; omega
      simp [hr, State.newDest, regBit, hb512]
    · rw [State.complete_zmmReg_other s t3 a hr]
      exact hs r b hb

/-- Every write keeps the invariant. -/
theorem Writes.inv {a : FpFlags} {s t : State} (h : Writes a s t) (hs : Inv s) : Inv t := by
  obtain ⟨hmem, hregs, hreserved, hac, hcr2⟩ := hs
  refine ⟨?_, ?_, ?_, ?_, ?_⟩
  · rw [h.mem_eq]
    exact hmem
  · rw [h.config_eq]
    exact h.within_maxVl hregs
  · rw [State.mxcsrReservedBits, h.mxcsr_eq, extractLsb'_reserved_or_flags]
    exact hreserved
  · cases h with
    | raised e notAc h => simpa [h] using notAc
    | completed f t3 h => rwa [h, State.complete_raised]
  · intro code la hraised
    cases h with
    | raised e notAc h =>
      subst h
      obtain rfl : e = .pf code la := by simpa using hraised
      rfl
    | completed f t3 h =>
      subst h
      exact hcr2 code la hraised

/-- Settles O60: whatever a step writes, it keeps the invariant. -/
theorem stepKeepsInvariant : Obligations.StepKeepsInvariant := by
  intro s t hs h
  obtain ⟨a, hw⟩ := step_writes h
  exact hw.inv hs

/-- Settles O59: memory is empty, every vector register is 0 and nothing is raised. -/
theorem invariantHoldsAtReset : Obligations.InvariantHoldsAtReset := by
  refine ⟨List.Pairwise.nil, ?_, rfl, ?_, ?_⟩
  · intro r b _
    simp [State.zmmReg_reset, regBit]
  · simp [State.reset]
  · intro code la h
    cases h

/-- Settles O30: MXCSR gains the flags of one set, the empty one under embedded rounding. -/
theorem mxcsrFlagsAreSticky : Obligations.MxcsrFlagsAreSticky := by
  intro i s t h
  obtain ⟨a, hw, her⟩ := exec_writes h
  refine ⟨fun b hb => ?_, fun b hb => ?_, fun hne => ?_⟩
  · simp [hw.mxcsr_eq, hb]
  · simp [hw.mxcsr_eq, a.getLsbD_bits_of_notMem hb]
  · rw [her hne] at hw
    simpa using hw.mxcsr_eq

/-- Settles O34: both kinds of write leave the rest alone, and only a page fault moves CR2. -/
theorem stepLeavesSystemStateAlone : Obligations.StepLeavesSystemStateAlone := by
  intro s t h
  obtain ⟨a, hw⟩ := step_writes h
  exact ⟨hw.restUnchanged, hw.mem_eq, fun hne => hw.cr2_cases.resolve_left hne⟩

end Sys2Proof.Machine

/-!
A step, by what the fetch and the decoder answer (10_state.md R19; 30_encoding.md R66; 70_reset_and_hazards.md R167), and the
statements about a step and about RESET and INIT (R26).
-/

namespace Sys2Proof.Machine

open Sys2Proof

/-! ### A step, by what the fetch and the decoder answer -/

theorem step_of_raised {s : State} {e : Exception} (h : s.raised = some e) : step s = .fault (.exceptionRaised e) := by
  simp [step, h]

theorem step_of_launchRefusal {s : State} {r : Refusal} (hraised : s.raised = none) (h : s.launchRefusal = some r) :
    step s = .refused r := by
  simp [step, hraised, h]

theorem step_of_atEndOfText {s : State} (hraised : s.raised = none) (hlaunch : s.launchRefusal = none)
    (h : s.atEndOfText s.fetchAddress = true) : step s = .fault .endOfProgram := by
  simp [step, hraised, hlaunch, h]

/-- A step that is not refused or ended beforehand does what the decoder answers for the fetched bytes. -/
theorem step_eq_execDecoded {s : State} (hraised : s.raised = none) (hlaunch : s.launchRefusal = none)
    (hend : s.atEndOfText s.fetchAddress = false) : step s = execDecoded (decode s.fetched.1) s.fetched s := by
  simp [step, hraised, hlaunch, hend, fetchAndExec]

/-- R167: the end of the text decides however many bytes came before it. -/
theorem execTruncated_of_beyondText {family : Bool} {bs : List Byte} {s : State}
    (hfits : family = true → s.nextRipFits (shapeLength bs) = true) :
    execTruncated family (bs, .beyondText) s = .refused .beyondProgramText := by
  cases family with
  | false => simp [execTruncated, fetchFailure]
  | true => simp [execTruncated, fetchFailure, hfits]

/-- R19: so does a byte that is not canonical. -/
theorem execTruncated_of_nonCanonical (family : Bool) (bs : List Byte) (s : State) :
    execTruncated family (bs, .nonCanonical) s = .refused .ripNotCanonical := by
  simp only [execTruncated, fetchFailure]
  split
  · rfl
  · simp

/-- RIP outside the text: the fetch gives no byte. -/
theorem fetched_of_outside {s : State} (h : s.text.size ≤ (s.fetchAddress - s.text.start).toNat) :
    s.fetched = ([], .beyondText) := by
  have hout : s.inText s.fetchAddress = false := by simpa [State.inText] using h
  simp [State.fetched, State.fetchFrom, State.fetchByte, hout]

theorem launchRefusal_of_trapFlag {s : State} (hmode : s.realOrVm86 = true ∨ s.in64BitMode = true)
    (h : s.rflags.getLsbD 8 = true) : s.launchRefusal = some .singleStepArmed := by
  rcases hmode with hm | hm <;> simp [State.launchRefusal, State.trapFlag, hm, h]

theorem launchRefusal_of_reserved {s : State} (hmode : s.realOrVm86 = true ∨ s.in64BitMode = true)
    (htf : s.rflags.getLsbD 8 = false) (h : s.mxcsr.extractLsb' 16 16 ≠ 0#16) :
    s.launchRefusal = some .mxcsrReserved := by
  have htf : s.trapFlag = false := htf
  rcases hmode with hm | hm <;> simp [State.launchRefusal, State.mxcsrReservedBits, hm, htf, h]

/-! ### The statements about a step -/

/-- Settles O56: with nothing to stop the step, the decoder's answer decides. -/
theorem stepRunsDecodedInstruction : Obligations.StepRunsDecodedInstruction := by
  intro s i hraised hlaunch hend hdecode
  rw [step_eq_execDecoded hraised hlaunch hend, hdecode, execDecoded]
  exact ⟨fun hfits => if_pos hfits, fun hfits => if_neg (by simp [hfits])⟩

/-- Settles O58, clause by clause in the order in which `step` tests them. -/
theorem runEndsAtExceptionOrEndOfText : Obligations.RunEndsAtExceptionOrEndOfText := by
  refine ⟨fun s e => step_of_raised, fun s hraised hlaunch hend => ?_, fun s hraised hlaunch hne hout => ?_,
    fun s bs family hraised hlaunch hend hfetched hdecode hfits => ?_,
    fun s bs family hraised hlaunch hend hfetched hdecode => ?_,
    fun s hraised hmode => ⟨fun htf => ?_, fun htf hmx => ?_⟩⟩
  · exact step_of_atEndOfText hraised hlaunch (by simp [State.atEndOfText, hend])
  · have hend : s.atEndOfText s.fetchAddress = false := by simpa [State.atEndOfText] using hne
    have hdecode : decode [] = .truncated false := rfl
    rw [step_eq_execDecoded hraised hlaunch hend, fetched_of_outside hout, hdecode]
    exact execTruncated_of_beyondText (by simp)
  · rw [step_eq_execDecoded hraised hlaunch hend, hfetched, hdecode]
    exact execTruncated_of_beyondText hfits
  · rw [step_eq_execDecoded hraised hlaunch hend, hfetched, hdecode]
    exact execTruncated_of_nonCanonical family bs s
  · exact step_of_launchRefusal hraised (launchRefusal_of_trapFlag hmode htf)
  · exact step_of_launchRefusal hraised (launchRefusal_of_reserved hmode htf hmx)

/-! ### RESET and INIT -/

/-- CD and NW are all that INIT keeps of CR0 (R26). -/
theorem getLsbD_initEvent_cr0 (s : State) (b : Nat) :
    s.initEvent.cr0.getLsbD b = if b = 29 ∨ b = 30 then s.cr0.getLsbD b else State.reset.cr0.getLsbD b := by
  have hbits : ∀ b < 64, (0x60000000#64).getLsbD b = decide (b = 29 ∨ b = 30) ∧
      (¬ (b = 29 ∨ b = 30) → (0x10#64).getLsbD b = (0x60000010#64).getLsbD b) ∧
      (b = 29 ∨ b = 30 → (0x10#64).getLsbD b = false) := by decide
  by_cases hb : b < 64
  · obtain ⟨hkept, hrest, hset⟩ := hbits b hb
    by_cases h : b = 29 ∨ b = 30
    · simp only [State.initEvent, BitVec.getLsbD_or, BitVec.getLsbD_and, hkept, h, hset h]
      simp
    · simp only [State.initEvent, State.reset, BitVec.getLsbD_or, BitVec.getLsbD_and, hkept, h, hrest h]
      simp
  · have hne : ¬ (b = 29 ∨ b = 30) := by omega
    rw [if_neg hne, BitVec.getLsbD_of_ge _ _ (by omega), BitVec.getLsbD_of_ge _ _ (by omega)]

/-- Settles O53: the table of R26, of which CR0 after INIT is the one computed value. -/
theorem resetAndInitValues : Obligations.ResetAndInitValues := by
  refine ⟨State.zmmReg_reset, State.kAt_reset, rfl, fun r _ => State.gprAt_reset r, rfl, rfl, rfl, rfl, rfl, rfl, rfl, rfl,
    rfl, rfl, rfl, by decide, by decide, fun s => ?_⟩
  exact ⟨rfl, rfl, rfl, rfl, rfl, rfl, rfl, rfl, rfl, rfl, rfl, rfl, rfl, getLsbD_initEvent_cr0 s⟩

end Sys2Proof.Machine

/-!
The linear address of a memory operand (20_memory.md R36 to R38), by its parts: the index, the displacement, the prefixes.
-/

namespace Sys2Proof.Machine

open Sys2Proof

theorem shiftLeft_eq_mul_two_pow (x : Addr) (n : Nat) : x <<< n = x * 2 ^ n := by
  apply BitVec.eq_of_toNat_eq
  simp [BitVec.toNat_shiftLeft, Nat.shiftLeft_eq, BitVec.toNat_mul, BitVec.toNat_pow]

theorem State.indexValue_none (s : State) (scale : BitVec 2) : s.indexValue 4#4 scale = 0 := rfl

theorem State.indexValue_some (s : State) {index : Gpr} (h : index ≠ 4#4) (scale : BitVec 2) :
    s.indexValue index scale = s.gprAt index * 2 ^ scale.toNat := by
  rw [State.indexValue, if_neg h, shiftLeft_eq_mul_two_pow]

theorem State.effectiveAddress_addr32 (s : State) {f : Form} (h : hasAddr32 f.pfx = true) (bcst : Bool) (m : MemOperand) :
    s.effectiveAddress f bcst m =
      ((s.rawAddress (s.rip + BitVec.ofNat 64 f.ilen) (dispScale f.vl bcst) m).setWidth 32).setWidth 64 := by
  simp [State.effectiveAddress, h]

theorem State.segBase_eq_zero (s : State) {f : Form} (hfs : segOverride f.pfx ≠ some .fs)
    (hgs : segOverride f.pfx ≠ some .gs) : s.segBase f = 0 := by
  rw [State.segBase]
  split
  · next h => exact absurd h hfs
  · next h => exact absurd h hgs
  · rfl

theorem State.linearAddress_of_noPrefix (s : State) {f : Form} (h : f.pfx = []) (bcst : Bool) (m : MemOperand) :
    s.linearAddress f bcst m = s.rawAddress (s.rip + BitVec.ofNat 64 f.ilen) (dispScale f.vl bcst) m := by
  simp [State.linearAddress, State.segBase, State.effectiveAddress, hasAddr32, segOverride, h]

/-- Settles O51: without prefixes the address is the sum that R36 writes, else R36 and R38 say what each of them does. -/
theorem linearAddressForms : Obligations.LinearAddressForms := by
  refine ⟨fun s f hpfx => ?_, fun s f b m => ⟨fun h => s.effectiveAddress_addr32 h b m, fun h => ?_, fun h => ?_,
    fun hfs hgs => ?_⟩⟩
  · simp only [s.linearAddress_of_noPrefix hpfx, State.rawAddress, dispValue, dispScale, State.indexValue_none]
    simp +contextual [State.indexValue_some]
  · rw [State.linearAddress, State.segBase, h]
  · rw [State.linearAddress, State.segBase, h]
  · rw [State.linearAddress, s.segBase_eq_zero hfs hgs, zero_add]

end Sys2Proof.Machine

/-!
Which flags reach MXCSR (R88), embedded rounding against MXCSR rounding (R82, R89), and the opmask bits that an instruction
does not read (R13, R83).
-/

namespace Sys2Proof

@[simp] theorem form_mkEr (d : Digits) (neg : Bool) (o : ErForm) : (mkEr d neg o).form = erForm d neg o := by
  cases d <;> cases neg <;> rfl

@[simp] theorem form_mkPlain (d : Digits) (neg : Bool) (vl : VecLen) (o : PlainForm) :
    (mkPlain d neg vl o).form = plainForm d neg vl o := by
  cases d <;> cases neg <;> cases vl <;> rfl

/-- The 512-bit register row with the operands of an embedded-rounding row. -/
def ErForm.toPlain (o : ErForm) : PlainForm := ⟨o.pfx, o.dest, o.src2, .reg o.src3, o.mask⟩

end Sys2Proof

namespace Sys2Proof.Machine

open Sys2Proof

/-! ### Flags by phase (R88) -/

/-- IE and DE are bits 0 and 1. -/
theorem FpFlags.bits_pre (a : FpFlags) : a.pre.bits = a.bits &&& 3#6 := by
  obtain ⟨ie, de, oe, ue, pe⟩ := a
  revert ie de oe ue pe
  decide

theorem FpFlags.unmasked_iff (a : FpFlags) (masks : BitVec 6) :
    a.unmasked masks = true ↔ ∃ b, a.bits.getLsbD b = true ∧ masks.getLsbD b = false := by
  have hzero : a.bits &&& ~~~masks = 0#6 ↔ ∀ b, a.bits.getLsbD b = true → masks.getLsbD b = true := by
    constructor
    · intro h b hb
      have hlt : b < 6 := by
        by_contra hge
        simp [BitVec.getLsbD_of_ge _ _ (Nat.le_of_not_lt hge)] at hb
      have hbit := congrArg (·.getLsbD b) h
      simpa [hb, hlt] using hbit
    · intro h
      apply BitVec.eq_of_getLsbD_eq
      intro b hlt
      cases hb : a.bits.getLsbD b with
      | false => simp [hb]
      | true => simp [hb, h b hb]
  rw [FpFlags.unmasked, bne_iff_ne, ne_eq, hzero]
  simp

/-- A bit of the IE and DE flags that the active lanes detect together. -/
theorem State.getLsbD_detected_pre (s : State) (f : Form) (t3 : Nat → Fp16) (b : Nat) :
    (s.detected f t3).pre.bits.getLsbD b = true ↔
      ∃ j, Active f s j ∧ (s.laneResult f t3 j).2.pre.bits.getLsbD b = true := by
  simp only [FpFlags.bits_pre, BitVec.getLsbD_and, Bool.and_eq_true, s.getLsbD_detected, s.mem_activeLanes,
    ← and_assoc, exists_and_right]

/-- The pre-computation flags of the active lanes together are unmasked exactly when those of one active lane are. -/
theorem State.detected_pre_unmasked_iff (s : State) (f : Form) (t3 : Nat → Fp16) (masks : BitVec 6) :
    (s.detected f t3).pre.unmasked masks = true ↔
      ∃ j, Active f s j ∧ (s.laneResult f t3 j).2.pre.unmasked masks = true := by
  simp only [FpFlags.unmasked_iff, s.getLsbD_detected_pre]
  constructor
  · rintro ⟨b, ⟨j, hactive, hbit⟩, hmask⟩
    exact ⟨j, hactive, b, hbit, hmask⟩
  · rintro ⟨j, hactive, b, hbit, hmask⟩
    exact ⟨b, ⟨j, hactive, hbit⟩, hmask⟩

/-- MXCSR after an instruction without embedded rounding (R88): after a raise by IE or DE those flags of all active lanes
are added, else all their flags. -/
theorem LanesNext.mxcsr_eq {f : Form} {t3 : Nat → Fp16} {s t : State} (h : LanesNext f t3 s t) (er : f.er = none) :
    t.mxcsr = (s.orFlags (if (s.detected f t3).pre.unmasked s.mxcsrMasks then (s.detected f t3).pre
      else s.detected f t3)).mxcsr := by
  cases h with
  | suppressed er' h => simp [er] at er'
  | raisedPre er u h => simp [h, u]
  | raisedPost er n u h => simp [h, n]
  | completed er n m h => simp [h, n]

theorem State.laneResult_thirdElement (s : State) (f : Form) : s.laneResult f (thirdElement f s) = lanesOf f s := rfl

/-- Settles O39: whether IE and DE of some active lane are unmasked decides which flags are added to MXCSR. -/
theorem flagsReportedByPhase : Obligations.FlagsReportedByPhase := by
  intro i s t henabled hreadable her h
  rw [exec_eq, execPacked_enabled henabled hreadable] at h
  have hmx := (execLanes_cases h).mxcsr_eq her
  have hphase := s.detected_pre_unmasked_iff i.form (thirdElement i.form s) s.mxcsrMasks
  simp only [s.laneResult_thirdElement, FpFlags.unmasked, bne_iff_ne] at hphase
  refine ⟨fun hex b hb => ?_, fun hall b hb => ?_⟩
  · have hunmasked : (s.detected i.form (thirdElement i.form s)).pre.unmasked s.mxcsrMasks = true :=
      bne_iff_ne.2 (hphase.2 hex)
    rw [hmx, if_pos hunmasked, s.getLsbD_orFlags _ hb, Bool.or_eq_true, s.getLsbD_detected_pre]
    rfl
  · have hmasked : ¬ (s.detected i.form (thirdElement i.form s)).pre.unmasked s.mxcsrMasks = true := by
      rw [FpFlags.unmasked, bne_iff_ne, hphase]
      simpa using hall
    rw [hmx, if_neg hmasked, s.getLsbD_orFlags _ hb, Bool.or_eq_true, s.getLsbD_detected]
    simp only [s.mem_activeLanes]
    rfl

/-! ### Embedded rounding and MXCSR rounding (R82, R89) -/

theorem FpFlags.unmasked_allOnes (a : FpFlags) : a.unmasked (BitVec.allOnes 6) = false := by
  simp [FpFlags.unmasked]

theorem State.mxcsrMasks_eq_allOnes {s : State} (h : ∀ b, 7 ≤ b → b ≤ 12 → s.mxcsr.getLsbD b = true) :
    s.mxcsrMasks = BitVec.allOnes 6 := by
  apply BitVec.eq_of_getLsbD_eq
  intro b hb
  have hbit := h (7 + b) (by omega) (by omega)
  rw [State.mxcsrMasks, BitVec.getLsbD_extractLsb', BitVec.getLsbD_allOnes, hbit, Bool.and_true]

/-- The row without embedded rounding completes when every exception is masked. -/
theorem execLanes_of_allMasked {f : Form} {s : State} (t3 : Nat → Fp16) (er : f.er = none)
    (h : s.mxcsrMasks = BitVec.allOnes 6) : execLanes f t3 s = .next (s.complete f t3 (s.detected f t3)) := by
  simp only [execLanes, er, h, FpFlags.unmasked_allOnes, Option.isSome_none, Bool.false_eq_true, if_false]

/-- R89: the embedded-rounding row completes with no flag. -/
theorem execLanes_of_er {f : Form} (s : State) (t3 : Nat → Fp16) (er : f.er.isSome = true) :
    execLanes f t3 s = .next (s.complete f t3 .empty) := by
  simp [execLanes, er]

/-- Both rows name the same operands, so the same checks are passed. -/
theorem SimdEnabled.toPlain {d : Digits} {neg : Bool} {o : ErForm} {s : State} (h : SimdEnabled (erForm d neg o) s) :
    SimdEnabled (plainForm d neg .v512 o.toPlain) s := h

/-- With the mode of EVEX.RC in MXCSR and every exception masked, both rows give their lanes the same control. -/
theorem State.laneControl_toPlain {s : State} {o : ErForm} (d : Digits) (neg : Bool) (hrc : s.mxcsrRc = o.rc)
    (hmasks : s.mxcsrMasks = BitVec.allOnes 6) :
    s.laneControl (plainForm d neg .v512 o.toPlain) = s.laneControl (erForm d neg o) := by
  simp only [State.laneControl, State.roundMode, State.laneMasks, plainForm, erForm, hrc, hmasks]

/-- So they write the same destination. -/
theorem State.newDest_toPlain {s : State} {o : ErForm} {d : Digits} {neg : Bool}
    (h : s.laneControl (plainForm d neg .v512 o.toPlain) = s.laneControl (erForm d neg o)) (t3 : Nat → Fp16) :
    s.newDest (plainForm d neg .v512 o.toPlain) t3 = s.newDest (erForm d neg o) t3 := by
  have hlane : s.laneResult (plainForm d neg .v512 o.toPlain) t3 = s.laneResult (erForm d neg o) t3 := by
    funext j
    simp only [State.laneResult, h]
    rfl
  have hnew : s.newLane (plainForm d neg .v512 o.toPlain) t3 = s.newLane (erForm d neg o) t3 := by
    funext j
    simp only [State.newLane, hlane]
    rfl
  simp only [State.newDest, hnew]
  rfl

/-- MXCSR.RC by its two bits (R16). -/
theorem State.mxcsrRc_eq (s : State) :
    s.mxcsrRc = roundModeOf (BitVec.ofBool (s.mxcsr.getLsbD 14) ++ BitVec.ofBool (s.mxcsr.getLsbD 13)) := by
  rw [State.mxcsrRc]
  congr 1
  apply BitVec.eq_of_getLsbD_eq
  intro b hb
  rw [BitVec.getLsbD_extractLsb', BitVec.getLsbD_append]
  obtain rfl | rfl : b = 0 ∨ b = 1 := by omega
  · simp
  · simp

/-- Settles O41: with every exception masked the MXCSR row completes too, and its lanes have the same control. -/
theorem embeddedRoundingEqualsMxcsrRounding : Obligations.EmbeddedRoundingEqualsMxcsrRounding := by
  intro d neg o s henabled hraised hmode hmask
  have hrc : s.mxcsrRc = o.rc := by
    rw [s.mxcsrRc_eq]
    cases hmodeOf : o.rc <;> rw [hmodeOf] at hmode <;> obtain ⟨h14, h13⟩ := hmode <;> rw [h14, h13] <;> rfl
  have hmasks := State.mxcsrMasks_eq_allOnes hmask
  have hdest := State.newDest_toPlain (State.laneControl_toPlain d neg hrc hmasks) (thirdElement (erForm d neg o) s)
  have her : exec (mkEr d neg o) s = .next (s.complete (erForm d neg o) (thirdElement (erForm d neg o) s) .empty) := by
    rw [exec_eq, form_mkEr, execPacked_enabled henabled trivial]
    exact execLanes_of_er s _ rfl
  obtain ⟨a, hplain⟩ : ∃ a, exec (mkPlain d neg .v512 o.toPlain) s =
      .next (s.complete (plainForm d neg .v512 o.toPlain) (thirdElement (erForm d neg o) s) a) := by
    rw [exec_eq, form_mkPlain, execPacked_enabled henabled.toPlain trivial]
    exact ⟨_, execLanes_of_allMasked _ rfl hmasks⟩
  refine ⟨_, _, her, hplain, ?_, ?_, hraised, hraised⟩
  · rw [State.complete_zmm, State.complete_zmm, hdest]
    rfl
  · rw [State.complete_rip, State.complete_rip]
    rfl

end Sys2Proof.Machine

/-!
The opmask bits that an instruction does not read (10_state.md R13, R14; 40_packed_common.md R83): every operation commutes
with replacing them.
-/

namespace Sys2Proof.Machine

open Sys2Proof

/-- Replace all opmask registers, to compare two states; no instruction does so (R93). -/
def State.setK (s : State) (kv : Vector (BitVec 64) 8) : State := { s with k := kv }

/-- The opmask registers `kv` hold what those of `s` hold in the bits that the form reads: bits KL-1:0 of the register it
selects, none without a writemask. -/
def MasksAgree (f : Form) (s : State) (kv : Vector (BitVec 64) 8) : Prop :=
  ∀ (k : KReg) (j : Nat), (f.mask = .merge k ∨ f.mask = .zero k) → j < f.vl.lanes →
    (kv[k.toNat]'k.isLt).getLsbD j = (s.k[k.toNat]'k.isLt).getLsbD j

theorem packLanes_congr {f g : Nat → Fp16} {n : Nat} (h : ∀ j, j < n → f j = g j) : packLanes f n = packLanes g n := by
  induction n with
  | zero => rfl
  | succ n ih => rw [packLanes, packLanes, h n (Nat.lt_succ_self n), ih fun j hj => h j (Nat.lt_succ_of_lt hj)]

@[simp] theorem raiseException_setK (e : Exception) (s : State) (kv : Vector (BitVec 64) 8) :
    raiseException e (s.setK kv) = mapNext (·.setK kv) (raiseException e s) := by
  cases e <;> rfl

theorem State.lowestFault_setK (s : State) (kv : Vector (BitVec 64) 8) (l : List Addr) :
    (s.setK kv).lowestFault l = s.lowestFault l := by
  have htranslate : (s.setK kv).translate .read = s.translate .read := rfl
  induction l with
  | nil => rfl
  | cons la l ih => rw [State.lowestFault, State.lowestFault, ih, htranslate]

theorem State.loadStatus_setK (s : State) (kv : Vector (BitVec 64) 8) (l : List Addr) :
    (s.setK kv).loadStatus l = s.loadStatus l := by
  have hread : (s.setK kv).readByte .read = s.readByte .read := rfl
  rw [State.loadStatus, State.loadStatus, s.lowestFault_setK, hread]

section
variable {f : Form} {s : State} {kv : Vector (BitVec 64) 8}

theorem MasksAgree.laneActive (h : MasksAgree f s kv) {j : Nat} (hj : j < f.vl.lanes) :
    (s.setK kv).laneActive f.mask j = s.laneActive f.mask j := by
  cases hmask : f.mask with
  | none => rfl
  | merge k => exact h k j (.inl hmask) hj
  | zero k => exact h k j (.inr hmask) hj

theorem MasksAgree.activeLanes (h : MasksAgree f s kv) : (s.setK kv).activeLanes f = s.activeLanes f :=
  List.filter_congr fun _ hj => h.laneActive (List.mem_range.1 hj)

theorem MasksAgree.detected (h : MasksAgree f s kv) (t3 : Nat → Fp16) :
    (s.setK kv).detected f t3 = s.detected f t3 := by
  rw [State.detected, State.detected, h.activeLanes]
  rfl

theorem MasksAgree.newDest (h : MasksAgree f s kv) (t3 : Nat → Fp16) : (s.setK kv).newDest f t3 = s.newDest f t3 := by
  have hlanes : packLanes ((s.setK kv).newLane f t3) f.vl.lanes = packLanes (s.newLane f t3) f.vl.lanes :=
    packLanes_congr fun j hj => by
      rw [State.newLane, State.newLane, h.laneActive hj]
      rfl
  rw [State.newDest, State.newDest, hlanes]

theorem MasksAgree.complete (h : MasksAgree f s kv) (t3 : Nat → Fp16) (a : FpFlags) :
    (s.setK kv).complete f t3 a = (s.complete f t3 a).setK kv := by
  rw [State.complete, h.newDest]
  rfl

theorem MasksAgree.execLanes (h : MasksAgree f s kv) (t3 : Nat → Fp16) :
    execLanes f t3 (s.setK kv) = mapNext (·.setK kv) (execLanes f t3 s) := by
  have hmasks : (s.setK kv).mxcsrMasks = s.mxcsrMasks := rfl
  have hor : ∀ a, (s.setK kv).orFlags a = (s.orFlags a).setK kv := fun _ => rfl
  have hsimd : (s.setK kv).simdException = s.simdException := rfl
  simp only [Machine.execLanes, h.detected, h.complete, hmasks, hor, hsimd, raiseException_setK,
    apply_ite (mapNext _)]
  rfl

theorem MasksAgree.execMemory (h : MasksAgree f s kv) (bcst : Bool) (m : MemOperand) :
    execMemory f bcst m (s.setK kv) = mapNext (·.setK kv) (execMemory f bcst m s) := by
  have haddr : (s.setK kv).linearAddress f bcst m = s.linearAddress f bcst m := rfl
  have hcanonical : ∀ la, (s.setK kv).operandCanonical f bcst la = s.operandCanonical f bcst la := fun _ => rfl
  have hneeded : ∀ la, (s.setK kv).neededBytes f bcst la = s.neededBytes f bcst la := fun la => by
    rw [State.neededBytes, State.neededBytes, h.activeLanes]
  have helement : (s.setK kv).element = s.element := rfl
  simp only [Machine.execMemory, haddr, hcanonical, hneeded, helement, s.loadStatus_setK, raiseException_setK,
    apply_ite (mapNext _)]
  congr 1
  cases s.loadStatus (s.neededBytes f bcst (s.linearAddress f bcst m)) with
  | ok => exact h.execLanes _
  | _ => rfl

theorem MasksAgree.execPacked (h : MasksAgree f s kv) :
    execPacked f (s.setK kv) = mapNext (·.setK kv) (execPacked f s) := by
  have hreal : (s.setK kv).realOrVm86 = s.realOrVm86 := rfl
  have h64 : (s.setK kv).in64BitMode = s.in64BitMode := rfl
  have hfeature : (s.setK kv).featureMissing f = s.featureMissing f := rfl
  have hos : (s.setK kv).osEnabled = s.osEnabled := rfl
  have hts : (s.setK kv).taskSwitched = s.taskSwitched := rfl
  have hregs : (s.setK kv).hasRegisters f = s.hasRegisters f := rfl
  simp only [Machine.execPacked, hreal, h64, hfeature, hos, hts, hregs, raiseException_setK,
    apply_ite (mapNext _)]
  cases f.src3 with
  | reg r => simp only [h.execLanes]; rfl
  | mem bcst m => simp only [h.execMemory]; rfl

end

/-- Settles O36: `execPacked` commutes with replacing opmask bits that the form does not read. -/
theorem maskBitsAboveLanesIgnored : Obligations.MaskBitsAboveLanesIgnored := by
  intro i s kv h
  rw [exec_eq, exec_eq]
  exact MasksAgree.execPacked h

end Sys2Proof.Machine

/-!
The encoder's bytes under the decoder (30_encoding.md R50 to R63): the fields of each byte, what SIB and displacement read
back as, and what the decoder answers for an encoding, whole or cut short.
-/

namespace Sys2Proof

/-! ### The fields of a byte -/

/-- A byte of fields 2, 3, 3 is ModRM or SIB (R56, R58). -/
@[simp] theorem extractLsb'_6_2 : ∀ (hi : BitVec 2) (mid lo : BitVec 3),
    (hi ++ mid ++ lo : Byte).extractLsb' 6 2 = hi := by decide

@[simp] theorem extractLsb'_3_3 : ∀ (hi : BitVec 2) (mid lo : BitVec 3),
    (hi ++ mid ++ lo : Byte).extractLsb' 3 3 = mid := by decide

@[simp] theorem extractLsb'_0_3 : ∀ (hi : BitVec 2) (mid lo : BitVec 3),
    (hi ++ mid ++ lo : Byte).extractLsb' 0 3 = lo := by decide

/-- P0 (R52): X, B, R' and R are read back, mmm is 110b and bit 3 is 0. -/
theorem encodeP0_fields : ∀ (dest : VReg) (x b : BitVec 1),
    evexX (encodeP0 dest x b) = x ∧ evexB (encodeP0 dest x b) = b ∧
      ~~~((encodeP0 dest x b).extractLsb' 4 1) = dest.extractLsb' 4 1 ∧
      ~~~((encodeP0 dest x b).extractLsb' 7 1) = dest.extractLsb' 3 1 ∧
      (encodeP0 dest x b).extractLsb' 0 3 = 6#3 ∧ (encodeP0 dest x b).getLsbD 3 = false := by decide

/-- P1 (R53): vvvv is read back, W is 0, bit 2 is 1 and pp is 01b. -/
theorem encodeP1_fields : ∀ src2 : VReg,
    ~~~((encodeP1 src2).extractLsb' 3 4) = src2.extractLsb' 0 4 ∧ (encodeP1 src2).extractLsb' 0 2 = 1#2 ∧
      (encodeP1 src2).getLsbD 7 = false ∧ (encodeP1 src2).getLsbD 2 = true := by decide

/-- P2 (R54), of which V' is the top bit of the second operand. -/
theorem encodeP2_fields (z : Bool) (ll : BitVec 2) (b : Bool) (src2 : VReg) (aaa : BitVec 3) :
    (encodeP2 z ll b src2 aaa).getLsbD 7 = z ∧ (encodeP2 z ll b src2 aaa).extractLsb' 5 2 = ll ∧
      (encodeP2 z ll b src2 aaa).getLsbD 4 = b ∧ ~~~((encodeP2 z ll b src2 aaa).extractLsb' 3 1) = src2.extractLsb' 4 1 ∧
      (encodeP2 z ll b src2 aaa).extractLsb' 0 3 = aaa := by
  rw [encodeP2]
  generalize src2.extractLsb' 4 1 = v
  revert z ll b v aaa
  decide

/-- A register number from its two EVEX bits and its ModRM field (R57). -/
theorem append_extractLsb'_vreg : ∀ r : VReg,
    (r.extractLsb' 4 1 ++ r.extractLsb' 3 1 ++ r.extractLsb' 0 3 : VReg) = r := by decide

theorem destOf_encode (dest : VReg) (x b : BitVec 1) (mod : BitVec 2) (rm : BitVec 3) :
    destOf (encodeP0 dest x b) (mod ++ dest.extractLsb' 0 3 ++ rm : Byte) = dest := by
  obtain ⟨_, _, htop, hnext, _, _⟩ := encodeP0_fields dest x b
  rw [destOf, htop, hnext, extractLsb'_3_3, append_extractLsb'_vreg]

theorem src2Of_encode (z : Bool) (ll : BitVec 2) (b : Bool) (src2 : VReg) (aaa : BitVec 3) :
    src2Of (encodeP1 src2) (encodeP2 z ll b src2 aaa) = src2 := by
  obtain ⟨_, _, _, htop, _⟩ := encodeP2_fields z ll b src2 aaa
  obtain ⟨hlow, _⟩ := encodeP1_fields src2
  have happend : ∀ r : VReg, (r.extractLsb' 4 1 ++ r.extractLsb' 0 4 : VReg) = r := by decide
  rw [src2Of, htop, hlow, happend]

theorem src3Of_encode (dest r : VReg) (mod : BitVec 2) (reg : BitVec 3) :
    src3Of (encodeP0 dest (r.extractLsb' 4 1) (r.extractLsb' 3 1)) (mod ++ reg ++ r.extractLsb' 0 3 : Byte) = r := by
  obtain ⟨hx, hb, _⟩ := encodeP0_fields dest (r.extractLsb' 4 1) (r.extractLsb' 3 1)
  rw [src3Of, hx, hb, extractLsb'_0_3, append_extractLsb'_vreg]

theorem inFamily_encode (dest src2 : VReg) (x b : BitVec 1) : inFamily (encodeP0 dest x b) (encodeP1 src2) = true := by
  obtain ⟨_, _, _, _, hmmm, _⟩ := encodeP0_fields dest x b
  obtain ⟨_, hpp, hw, _⟩ := encodeP1_fields src2
  rw [inFamily, hmmm, hpp, hw]
  rfl

theorem badEvex_encode (bad : Bool) (dest src2 : VReg) (x b : BitVec 1) :
    badEvex bad (encodeP0 dest x b) (encodeP1 src2) = bad := by
  obtain ⟨_, _, _, _, _, hfixed⟩ := encodeP0_fields dest x b
  obtain ⟨_, _, _, hone⟩ := encodeP1_fields src2
  rw [badEvex, hfixed, hone, Bool.or_false, Bool.not_true, Bool.or_false]

/-! ### The codes -/

@[simp] theorem opcodeOf_opcodeByte (d : Digits) (neg : Bool) : opcodeOf (opcodeByte d neg) = some (d, neg) := by
  cases d <;> cases neg <;> rfl

@[simp] theorem vecLenOf_vecLenBits (vl : VecLen) : vecLenOf (vecLenBits vl) = some vl := by cases vl <;> rfl

@[simp] theorem roundModeOf_roundModeBits (rc : RoundMode) : roundModeOf (roundModeBits rc) = rc := by cases rc <;> rfl

theorem maskingOf_encode {m : Masking} (h : m.wf = true) : maskingOf m.z m.aaa = some m := by
  cases m with
  | none => rfl
  | merge k => simp_all [Masking.wf, maskingOf, Masking.z, Masking.aaa]
  | zero k => simp_all [Masking.wf, maskingOf, Masking.z, Masking.aaa]

@[simp] theorem prefixOf_prefixByte (p : LegacyPrefix) : prefixOf (prefixByte p) = some p := by cases p <;> rfl

/-! ### SIB and displacement (R58) -/

theorem le32_bytes32 (d : BitVec 32) :
    le32 (d.extractLsb' 0 8) (d.extractLsb' 8 8) (d.extractLsb' 16 8) (d.extractLsb' 24 8) = d := by
  apply BitVec.eq_of_getLsbD_eq
  intro i hi
  simp only [le32, BitVec.getLsbD_append, BitVec.getLsbD_extractLsb']
  grind

@[simp] theorem readDisp32_bytes32 (d : BitVec 32) (bs : List Byte) : readDisp32 (bytes32 d ++ bs) = some d := by
  simp [bytes32, readDisp32, le32_bytes32]

@[simp] theorem readDisp_bytes (d : Disp) (bs : List Byte) : readDisp d.mod (d.bytes ++ bs) = some d := by
  cases d with
  | none => rfl
  | d8 d => rfl
  | d32 d => simp [readDisp, Disp.mod, Disp.bytes, bytes32, le32_bytes32]

theorem Disp.mod_ne_three (d : Disp) : d.mod ≠ 3#2 := by cases d <;> simp [Disp.mod]

theorem Src3.mod_mem_ne_three (bcst : Bool) (m : MemOperand) : (Src3.mem bcst m).mod ≠ 3#2 := by
  cases m with
  | baseDisp x base d => exact d.mod_ne_three
  | sib base index scale d => exact d.mod_ne_three
  | _ => simp [Src3.mod]

@[simp] theorem ofBool_beq_one (x : Bool) : (BitVec.ofBool x == 1#1) = x := by cases x <;> rfl

/-- A register number from its EVEX bit and its ModRM or SIB field (R57). -/
@[simp] theorem append_extractLsb'_gpr : ∀ r : Gpr, (r.extractLsb' 3 1 ++ r.extractLsb' 0 3 : Gpr) = r := by decide

/-- A base field of 101b needs a displacement (R58). -/
theorem not_noBase {base : Gpr} {d : Disp} (h : dispFits base d = true) :
    ¬ (d.mod = 0#2 ∧ base.extractLsb' 0 3 = 5#3) := by
  rintro ⟨hmod, hbase⟩
  cases d with
  | none => simp [dispFits, hbase] at h
  | d8 d => simp [Disp.mod] at hmod
  | d32 d => simp [Disp.mod] at hmod

theorem readMem_of_base {x b : BitVec 1} {mod : BitVec 2} {rm : BitVec 3} (hsib : rm ≠ 4#3)
    (hbase : ¬ (mod = 0#2 ∧ rm = 5#3)) (bs : List Byte) :
    readMem x b mod rm bs = (readDisp mod bs).map fun d => .baseDisp (x == 1#1) (b ++ rm) d := by
  simp only [readMem, if_neg hsib, if_neg hbase]

theorem readSib_of_base {x b : BitVec 1} {mod : BitVec 2} {sib : Byte} (hbase : ¬ (mod = 0#2 ∧ sib.extractLsb' 0 3 = 5#3))
    (bs : List Byte) :
    readSib x b mod sib bs = (readDisp mod bs).map fun d =>
      .sib (b ++ sib.extractLsb' 0 3) (x ++ sib.extractLsb' 3 3) (sib.extractLsb' 6 2) d := by
  rw [readSib, if_neg hbase]

/-- The decoder reads back a memory operand, whatever follows its bytes. -/
theorem readMem_extraBytes (bcst : Bool) {m : MemOperand} (h : m.wf = true) (bs : List Byte) :
    readMem (Src3.mem bcst m).x (Src3.mem bcst m).b (Src3.mem bcst m).mod (Src3.mem bcst m).rm
      ((Src3.mem bcst m).extraBytes ++ bs) = some m := by
  cases m with
  | baseDisp x base d =>
    obtain ⟨hsib, hfits⟩ : base.extractLsb' 0 3 ≠ 4#3 ∧ dispFits base d = true := by simpa [MemOperand.wf] using h
    refine (readMem_of_base hsib (not_noBase hfits) _).trans ?_
    simp [Src3.x, Src3.b, Src3.extraBytes]
  | ripRel x b d => simp [Src3.x, Src3.b, Src3.mod, Src3.rm, Src3.extraBytes, readMem]
  | sib base index scale d =>
    refine (readSib_of_base (by rw [extractLsb'_0_3]; exact not_noBase h) _).trans ?_
    simp [Src3.x, Src3.b, Src3.mod]
  | sibNoBase b index scale d =>
    simp [Src3.x, Src3.b, Src3.mod, Src3.rm, Src3.extraBytes, readMem, readSib]

/-! ### The bytes that SIB and displacement take (R58, R63) -/

theorem readDisp32_eq_none_iff (bs : List Byte) : readDisp32 bs = none ↔ bs.length < 4 := by
  match bs with
  | [] => simp [readDisp32]
  | [_] => simp [readDisp32]
  | [_, _] => simp [readDisp32]
  | [_, _, _] => simp [readDisp32]
  | _ :: _ :: _ :: _ :: _ => simp [readDisp32]

theorem readDisp_eq_none_iff {mod : BitVec 2} (h : mod ≠ 3#2) (bs : List Byte) :
    readDisp mod bs = none ↔ bs.length < dispLength mod := by
  have hmods : ∀ mod : BitVec 2, mod ≠ 3#2 → mod = 0#2 ∨ mod = 1#2 ∨ mod = 2#2 := by decide
  rcases hmods mod h with rfl | rfl | rfl
  · simp [readDisp, dispLength]
  · cases bs <;> simp [readDisp, dispLength]
  · have h32 : readDisp 2#2 bs = none ↔ readDisp32 bs = none := by
      match bs with
      | [] => simp [readDisp, readDisp32]
      | [_] => simp [readDisp, readDisp32]
      | [_, _] => simp [readDisp, readDisp32]
      | [_, _, _] => simp [readDisp, readDisp32]
      | _ :: _ :: _ :: _ :: _ => simp [readDisp, readDisp32]
    rw [h32, readDisp32_eq_none_iff]
    rfl

/-- A memory operand cannot be read exactly when fewer bytes are there than ModRM and SIB ask for. -/
theorem readMem_eq_none_iff (x b : BitVec 1) {modrm : Byte} (h : modrm.extractLsb' 6 2 ≠ 3#2) (bs : List Byte) :
    readMem x b (modrm.extractLsb' 6 2) (modrm.extractLsb' 0 3) bs = none ↔ bs.length < extraLength modrm bs := by
  simp only [extraLength, if_neg h]
  by_cases hrm : modrm.extractLsb' 0 3 = 4#3
  · cases bs with
    | nil => simp [readMem, hrm]
    | cons sib rest =>
      by_cases hbase : modrm.extractLsb' 6 2 = 0#2 ∧ sib.extractLsb' 0 3 = 5#3
      · simp only [readMem, readSib, if_pos hrm, if_pos hbase, Option.map_eq_none_iff, readDisp32_eq_none_iff,
          List.length_cons]
        omega
      · simp only [readMem, if_pos hrm, readSib_of_base hbase, if_neg hbase, Option.map_eq_none_iff,
          readDisp_eq_none_iff h, List.length_cons]
        omega
  · by_cases hrip : modrm.extractLsb' 6 2 = 0#2 ∧ modrm.extractLsb' 0 3 = 5#3
    · simp [readMem, hrip, readDisp32_eq_none_iff]
    · simp only [readMem_of_base hrm hrip, if_neg hrm, if_neg hrip, Option.map_eq_none_iff, readDisp_eq_none_iff h]

/-- What is asked for depends on the first byte alone, and is something if that byte is missing but may matter. -/
theorem length_take_lt_extraLength {modrm : Byte} {bs : List Byte} {k : Nat} (h : k < extraLength modrm bs) :
    (bs.take k).length < extraLength modrm (bs.take k) := by
  cases bs with
  | nil => simpa using Nat.zero_lt_of_lt h
  | cons b bs =>
    cases k with
    | succ k =>
      have hfirst : extraLength modrm (b :: bs.take k) = extraLength modrm (b :: bs) := rfl
      rw [List.take_succ_cons, hfirst]
      exact Nat.lt_of_le_of_lt (by simp) h
    | zero =>
      simp only [extraLength] at h
      simp only [List.take_zero, List.length_nil, extraLength]
      split_ifs at h ⊢ <;> omega

theorem Disp.dispLength_mod (d : Disp) : dispLength d.mod = d.len := by cases d <;> rfl

/-- The decoder's count of SIB and displacement bytes is the encoder's. -/
theorem extraLength_extraBytes {src : Src3} (h : src.wf = true) (reg : BitVec 3) (bs : List Byte) :
    extraLength (src.mod ++ reg ++ src.rm : Byte) (src.extraBytes ++ bs) = src.extraLen := by
  simp only [extraLength, extractLsb'_6_2, extractLsb'_0_3]
  cases src with
  | reg r => simp [Src3.mod, Src3.extraLen]
  | mem bcst m =>
    rw [if_neg (Src3.mod_mem_ne_three bcst m)]
    cases m with
    | baseDisp x base d =>
      obtain ⟨hsib, hfits⟩ : base.extractLsb' 0 3 ≠ 4#3 ∧ dispFits base d = true := by
        simpa [Src3.wf, MemOperand.wf] using h
      refine (if_neg hsib).trans ((if_neg (not_noBase hfits)).trans ?_)
      exact d.dispLength_mod
    | ripRel x b d => rfl
    | sib base index scale d =>
      simp only [Src3.rm, Src3.extraBytes, Src3.mod, List.cons_append, if_true, extractLsb'_0_3, if_neg (not_noBase h),
        d.dispLength_mod]
      rfl
    | sibNoBase b index scale d =>
      simp [Src3.rm, Src3.extraBytes, Src3.mod, Src3.extraLen, MemOperand.extraLen]

end Sys2Proof

/-!
What the decoder answers for an encoding, whole or cut short (30_encoding.md R63, R66).
-/

namespace Sys2Proof

/-! ### The six fixed bytes of a form (R50) -/

def Form.p0 (f : Form) : Byte := encodeP0 f.dest f.src3.x f.src3.b

def Form.p1 (f : Form) : Byte := encodeP1 f.src2

def Form.p2 (f : Form) : Byte := encodeP2 f.mask.z f.ll f.b f.src2 f.mask.aaa

def Form.modrm (f : Form) : Byte := f.src3.mod ++ f.dest.extractLsb' 0 3 ++ f.src3.rm

theorem Form.head_eq (f : Form) :
    f.head = [0x62#8, f.p0, f.p1, f.p2, opcodeByte f.digits f.neg, f.modrm] := rfl

theorem Form.destOf_eq (f : Form) : destOf f.p0 f.modrm = f.dest := destOf_encode ..

theorem Form.src2Of_eq (f : Form) : src2Of f.p1 f.p2 = f.src2 := src2Of_encode ..

theorem Form.p2_z (f : Form) : f.p2.getLsbD 7 = f.mask.z := by
  obtain ⟨hz, _⟩ := encodeP2_fields f.mask.z f.ll f.b f.src2 f.mask.aaa
  exact hz

theorem Form.p2_ll (f : Form) : f.p2.extractLsb' 5 2 = f.ll := by
  obtain ⟨_, hll, _⟩ := encodeP2_fields f.mask.z f.ll f.b f.src2 f.mask.aaa
  exact hll

theorem Form.p2_b (f : Form) : f.p2.getLsbD 4 = f.b := by
  obtain ⟨_, _, hb, _⟩ := encodeP2_fields f.mask.z f.ll f.b f.src2 f.mask.aaa
  exact hb

theorem Form.p2_aaa (f : Form) : f.p2.extractLsb' 0 3 = f.mask.aaa := by
  obtain ⟨_, _, _, _, haaa⟩ := encodeP2_fields f.mask.z f.ll f.b f.src2 f.mask.aaa
  exact haaa

theorem Form.evexX_eq (f : Form) : evexX f.p0 = f.src3.x := by
  obtain ⟨hx, _⟩ := encodeP0_fields f.dest f.src3.x f.src3.b
  exact hx

theorem Form.evexB_eq (f : Form) : evexB f.p0 = f.src3.b := by
  obtain ⟨_, hb, _⟩ := encodeP0_fields f.dest f.src3.x f.src3.b
  exact hb

theorem Form.modrm_mod (f : Form) : f.modrm.extractLsb' 6 2 = f.src3.mod := extractLsb'_6_2 ..

theorem Form.modrm_rm (f : Form) : f.modrm.extractLsb' 0 3 = f.src3.rm := extractLsb'_0_3 ..

theorem Form.src3Of_eq {f : Form} {r : VReg} (h : f.src3 = .reg r) : src3Of f.p0 f.modrm = r := by
  rw [Form.p0, Form.modrm, h]
  exact src3Of_encode ..

/-! ### The decoder on these bytes -/

/-- Every instruction is a plain row or an embedded-rounding row. -/
theorem Instr.eq_mk (i : Instr) :
    (∃ d neg vl o, i = mkPlain d neg vl o) ∨ ∃ d neg o, i = mkEr d neg o := by
  have h : (∃ o, i = mkPlain i.form.digits i.form.neg i.form.vl o) ∨ ∃ o, i = mkEr i.form.digits i.form.neg o := by
    cases i <;> simp [Instr.form, plainForm, erForm, mkPlain, mkEr]
  exact h.imp (fun h => ⟨_, _, _, h⟩) fun h => ⟨_, _, h⟩

/-- Operand 3 as the decoder reads it from the bytes after ModRM: a register needs none of them. -/
def Src3.readFrom (src : Src3) (bs : List Byte) : Option Src3 :=
  match src with
  | .reg r => some (.reg r)
  | .mem bcst m =>
    (readMem (Src3.mem bcst m).x (Src3.mem bcst m).b (Src3.mem bcst m).mod (Src3.mem bcst m).rm bs).map (.mem bcst)

theorem Src3.readFrom_extraBytes {src : Src3} (h : src.wf = true) (bs : List Byte) :
    src.readFrom (src.extraBytes ++ bs) = some src := by
  cases src with
  | reg r => rfl
  | mem bcst m => simp only [Src3.readFrom, readMem_extraBytes bcst h, Option.map_some]

/-- Cut short, operand 3 cannot be read. -/
theorem Src3.readFrom_take {src : Src3} (h : src.wf = true) (bs : List Byte) {k : Nat} (hk : k < src.extraLen) :
    src.readFrom ((src.extraBytes ++ bs).take k) = none := by
  cases src with
  | reg r => simp [Src3.extraLen] at hk
  | mem bcst m =>
    have hmod : ((Src3.mem bcst m).mod ++ 0#3 ++ (Src3.mem bcst m).rm : Byte).extractLsb' 6 2 ≠ 3#2 := by
      rw [extractLsb'_6_2]
      exact mod_mem_ne_three bcst m
    have hlen := extraLength_extraBytes h 0#3 bs
    have hnone := (readMem_eq_none_iff (Src3.mem bcst m).x (Src3.mem bcst m).b hmod _).2
      (length_take_lt_extraLength (bs := (Src3.mem bcst m).extraBytes ++ bs) (hlen ▸ hk))
    rw [extractLsb'_6_2, extractLsb'_0_3] at hnone
    simp only [Src3.readFrom, hnone, Option.map_none]

/-- The decoder after the family test, on the bytes of a form. -/
theorem Form.decodeFamily_eq {f : Form} (h : f.mask.wf = true) (d : Digits) (neg : Bool) (bs : List Byte) :
    decodeFamily f.pfx d neg f.p0 f.p1 f.p2 f.modrm bs =
      if f.src3.mod = 3#2 then decodeReg d neg f.pfx f.p0 f.p1 f.p2 f.modrm f.mask
      else decodeMem d neg f.pfx f.p0 f.p1 f.p2 f.modrm f.mask bs := by
  rw [decodeFamily, f.p2_z, f.p2_aaa, maskingOf_encode h, f.modrm_mod]

theorem decodeFamily_er (d : Digits) (neg : Bool) {o : ErForm} (h : o.mask.wf = true) (bs : List Byte) :
    decodeFamily o.pfx d neg (erForm d neg o).p0 (erForm d neg o).p1 (erForm d neg o).p2 (erForm d neg o).modrm bs =
      .form (mkEr d neg o) := by
  have hb : (erForm d neg o).p2.getLsbD 4 = true := Form.p2_b _
  have hll : (erForm d neg o).p2.extractLsb' 5 2 = roundModeBits o.rc := Form.p2_ll _
  refine (Form.decodeFamily_eq (f := erForm d neg o) h d neg bs).trans ((if_pos rfl).trans ?_)
  simp only [decodeReg, hb, hll, Form.destOf_eq, Form.src2Of_eq, Form.src3Of_eq (f := erForm d neg o) rfl]
  rw [roundModeOf_roundModeBits]
  rfl

theorem decodeFamily_plain (d : Digits) (neg : Bool) (vl : VecLen) {o : PlainForm} (h : o.mask.wf = true)
    (bs : List Byte) :
    decodeFamily o.pfx d neg (plainForm d neg vl o).p0 (plainForm d neg vl o).p1 (plainForm d neg vl o).p2
        (plainForm d neg vl o).modrm bs =
      (o.src3.readFrom bs).elim (.truncated true) fun src => .form (mkPlain d neg vl { o with src3 := src }) := by
  have hll : (plainForm d neg vl o).p2.extractLsb' 5 2 = vecLenBits vl := Form.p2_ll _
  refine (Form.decodeFamily_eq (f := plainForm d neg vl o) h d neg bs).trans ?_
  cases hsrc : o.src3 with
  | reg r =>
    have hmod : (plainForm d neg vl o).src3.mod = 3#2 := by simp [plainForm, hsrc, Src3.mod]
    have hb : (plainForm d neg vl o).p2.getLsbD 4 = false := by simp only [Form.p2_b, Form.b, plainForm, hsrc]
    rw [if_pos hmod]
    simp only [decodeReg, decodePlain, hb, hll, vecLenOf_vecLenBits, Form.destOf_eq, Form.src2Of_eq,
      Form.src3Of_eq (f := plainForm d neg vl o) hsrc]
    rfl
  | mem bcst m =>
    have hmod : (plainForm d neg vl o).src3.mod ≠ 3#2 := by
      simp only [plainForm, hsrc]
      exact Src3.mod_mem_ne_three bcst m
    have hb : (plainForm d neg vl o).p2.getLsbD 4 = bcst := by simp only [Form.p2_b, Form.b, plainForm, hsrc]
    have hsrc' : (plainForm d neg vl o).src3 = .mem bcst m := hsrc
    rw [if_neg hmod]
    simp only [decodeMem, hb, hll, vecLenOf_vecLenBits, Form.destOf_eq, Form.src2Of_eq, Form.evexX_eq, Form.evexB_eq,
      Form.modrm_mod, Form.modrm_rm, hsrc', Src3.readFrom]
    cases readMem (Src3.mem bcst m).x (Src3.mem bcst m).b (Src3.mem bcst m).mod (Src3.mem bcst m).rm bs <;> rfl

theorem scanPrefixes_map_prefixByte (ps : List LegacyPrefix) (bs : List Byte) :
    scanPrefixes (ps.map prefixByte ++ 0x62#8 :: bs) = { pfx := ps, bad := false, rest := 0x62#8 :: bs } := by
  induction ps with
  | nil => rfl
  | cons p ps ih => simp [scanPrefixes, ih]

/-- The bytes up to ModRM are those of this family, and nothing among them is #UD. -/
theorem Form.decodeEvex_head (f : Form) (bs : List Byte) :
    decodeEvex (scanPrefixes (f.pfx.map prefixByte ++ (f.head ++ bs))) =
      decodeFamily f.pfx f.digits f.neg f.p0 f.p1 f.p2 f.modrm bs := by
  have hfamily : inFamily f.p0 f.p1 = true := inFamily_encode ..
  have hgood : badEvex false f.p0 f.p1 = false := badEvex_encode ..
  simp only [f.head_eq, List.cons_append, List.nil_append, scanPrefixes_map_prefixByte]
  simp [decodeEvex, decodeAfterEscape, hfamily, hgood]

/-- The decoder, but for the length, on a form's bytes up to ModRM and whatever comes after them. -/
theorem decodeEvex_encode {i : Instr} (h : i.form.mask.wf = true) (bs : List Byte) :
    (i.form.src3.readFrom bs = some i.form.src3 →
      decodeEvex (scanPrefixes (i.form.pfx.map prefixByte ++ (i.form.head ++ bs))) = .form i) ∧
    (i.form.src3.readFrom bs = none →
      decodeEvex (scanPrefixes (i.form.pfx.map prefixByte ++ (i.form.head ++ bs))) = .truncated true) := by
  rw [i.form.decodeEvex_head]
  rcases i.eq_mk with ⟨d, neg, vl, o, rfl⟩ | ⟨d, neg, o, rfl⟩
  · rw [form_mkPlain] at h ⊢
    have hdecode := decodeFamily_plain d neg vl (o := o) h bs
    refine ⟨fun hread => hdecode.trans ?_, fun hread => hdecode.trans ?_⟩
    · have hread : o.src3.readFrom bs = some o.src3 := hread
      rw [hread]
      rfl
    · have hread : o.src3.readFrom bs = none := hread
      rw [hread]
      rfl
  · rw [form_mkEr] at h ⊢
    exact ⟨fun _ => decodeFamily_er d neg h bs, fun hread => by cases hread⟩

/-- Bytes that end with the opcode: the family is known, ModRM is missing. -/
theorem Form.decode_upTo_opcode (f : Form) :
    decode (f.pfx.map prefixByte ++ [0x62#8, f.p0, f.p1, f.p2, opcodeByte f.digits f.neg]) = .truncated true := by
  have hfamily : inFamily f.p0 f.p1 = true := inFamily_encode ..
  simp [decode, scanPrefixes_map_prefixByte, decodeEvex, decodeAfterEscape, hfamily, limitLength]

/-- R63, by the law of encoded lengths. -/
theorem length_encode (i : Instr) : (encode i).length = i.ilen := Laws.EncodeLength.of_form i

theorem encode_append (i : Instr) (bs : List Byte) :
    encode i ++ bs = i.form.pfx.map prefixByte ++ (i.form.head ++ (i.form.src3.extraBytes ++ bs)) := by
  simp only [encode, List.append_assoc]

/-- R63: an encoding of more than 15 bytes is #GP(0), whatever follows it. -/
theorem decode_encode_of_long {i : Instr} (hmask : i.form.mask.wf = true) (hsrc : i.form.src3.wf = true)
    (hlong : maxInstrLen < i.ilen) (bs : List Byte) : decode (encode i ++ bs) = .gp0 := by
  rw [decode, encode_append, (decodeEvex_encode hmask _).1 (Src3.readFrom_extraBytes hsrc bs)]
  exact if_neg (Nat.not_le_of_lt hlong)

/-- As many bytes as R63 counts, or more, hold the whole encoding. -/
theorem take_encode_append (i : Instr) (bs : List Byte) {n : Nat} (h : i.ilen ≤ n) :
    (encode i ++ bs).take n = encode i ++ bs.take (n - i.ilen) := by
  rw [List.take_append, length_encode, List.take_of_length_le (by rwa [length_encode])]

/-- Cut short after the opcode, an encoding leaves the decoder without its answer. -/
theorem decode_take_encode {i : Instr} (hmask : i.form.mask.wf = true) (hsrc : i.form.src3.wf = true)
    (bs : List Byte) {n : Nat} (hopcode : i.form.pfx.length + 5 ≤ n) (hshort : n < i.ilen) :
    decode ((encode i ++ bs).take n) = .truncated true := by
  obtain ⟨k, rfl⟩ := Nat.exists_eq_add_of_le hopcode
  have htake : (encode i ++ bs).take (i.form.pfx.length + 5 + k) =
      i.form.pfx.map prefixByte ++ (i.form.head ++ (i.form.src3.extraBytes ++ bs)).take (5 + k) := by
    rw [encode_append, Nat.add_assoc, ← List.length_map (as := i.form.pfx) prefixByte, List.take_length_add_append]
  rw [htake]
  cases k with
  | zero => exact i.form.decode_upTo_opcode
  | succ k =>
    have hk : k < i.form.src3.extraLen := by simp only [Instr.ilen, Form.ilen] at hshort; omega
    have hhead : (i.form.head ++ (i.form.src3.extraBytes ++ bs)).take (5 + (k + 1)) =
        i.form.head ++ (i.form.src3.extraBytes ++ bs).take k := by
      have hlength : i.form.head.length + k = 5 + (k + 1) := by
        rw [i.form.head_eq, List.length_cons, List.length_cons, List.length_cons, List.length_cons, List.length_cons,
          List.length_singleton]
        omega
      rw [← hlength, List.take_length_add_append]
    rw [hhead, decode, (decodeEvex_encode hmask _).2 (Src3.readFrom_take hsrc bs hk)]
    rfl

end Sys2Proof

/-!
The encodings that raise at decode: #UD by U1 to U5 (30_encoding.md R64) and #GP(0) for more than 15 bytes (R63;
60_exceptions.md R134), and the steps that fetch them.
-/

namespace Sys2Proof

/-! ### When the decoder answers #UD (R64) -/

theorem limitLength_eq_ud_iff (r : DecodeResult) : limitLength r = .ud ↔ r = .ud := by
  cases r with
  | form i => simp only [limitLength]; split <;> simp
  | _ => simp [limitLength]

theorem maskingOf_eq_none_iff (z : Bool) (aaa : BitVec 3) : maskingOf z aaa = none ↔ z = true ∧ aaa = 0#3 := by
  by_cases h : aaa = 0#3 <;> cases z <;> simp [maskingOf, h]

theorem vecLenOf_eq_none_iff : ∀ ll : BitVec 2, vecLenOf ll = none ↔ ll = 3#2 := by decide

theorem decodePlain_eq_ud_iff (d : Digits) (neg : Bool) (ll : BitVec 2) (o : PlainForm) :
    decodePlain d neg ll o = .ud ↔ ll = 3#2 := by
  rw [← vecLenOf_eq_none_iff, decodePlain]
  cases vecLenOf ll <;> simp

theorem decodeReg_eq_ud_iff (d : Digits) (neg : Bool) (pfx : List LegacyPrefix) (p0 p1 p2 modrm : Byte) (mask : Masking) :
    decodeReg d neg pfx p0 p1 p2 modrm mask = .ud ↔ p2.extractLsb' 5 2 = 3#2 ∧ p2.getLsbD 4 = false := by
  rw [decodeReg]
  cases hb : p2.getLsbD 4 with
  | true => simp
  | false => simp [decodePlain_eq_ud_iff]

theorem decodeMem_eq_ud_iff (d : Digits) (neg : Bool) (pfx : List LegacyPrefix) (p0 p1 p2 modrm : Byte) (mask : Masking)
    (rest : List Byte) :
    decodeMem d neg pfx p0 p1 p2 modrm mask rest = .ud ↔ p2.extractLsb' 5 2 = 3#2 := by
  rw [← vecLenOf_eq_none_iff, decodeMem]
  cases vecLenOf (p2.extractLsb' 5 2) with
  | none => simp
  | some vl => cases readMem _ _ _ _ rest <;> simp

/-- U3 and U4: 11b for L'L, but for embedded rounding, and zeroing without a writemask. -/
theorem decodeFamily_eq_ud_iff (pfx : List LegacyPrefix) (d : Digits) (neg : Bool) (p0 p1 p2 modrm : Byte)
    (rest : List Byte) :
    decodeFamily pfx d neg p0 p1 p2 modrm rest = .ud ↔
      (p2.extractLsb' 5 2 = 3#2 ∧ ¬ (modrm.extractLsb' 6 2 = 3#2 ∧ p2.getLsbD 4 = true)) ∨
        (p2.getLsbD 7 = true ∧ p2.extractLsb' 0 3 = 0#3) := by
  rw [← maskingOf_eq_none_iff, decodeFamily]
  cases hmask : maskingOf (p2.getLsbD 7) (p2.extractLsb' 0 3) with
  | none => simp
  | some mask =>
    by_cases hmod : modrm.extractLsb' 6 2 = 3#2
    · simp [hmod, decodeReg_eq_ud_iff]
    · simp [hmod, decodeMem_eq_ud_iff]

theorem badEvex_eq_true_iff (bad : Bool) (p0 p1 : Byte) :
    badEvex bad p0 p1 = true ↔ bad = true ∨ p0.getLsbD 3 = true ∨ p1.getLsbD 2 = false := by
  simp only [badEvex, Bool.or_eq_true, Bool.not_eq_true', or_assoc]

/-- U1 to U4, and U5 as the scan of the prefixes reports it. -/
theorem decodeAfterEscape_eq_ud_iff (sc : PrefixScan) {p0 p1 op : Byte} (p2 modrm : Byte) (rest : List Byte)
    (hfamily : inFamily p0 p1 = true) (hop : (opcodeOf op).isSome = true) :
    decodeAfterEscape sc (p0 :: p1 :: p2 :: op :: modrm :: rest) = .ud ↔
      p0.getLsbD 3 = true ∨ p1.getLsbD 2 = false ∨
        (p2.extractLsb' 5 2 = 3#2 ∧ ¬ (modrm.extractLsb' 6 2 = 3#2 ∧ p2.getLsbD 4 = true)) ∨
        (p2.getLsbD 7 = true ∧ p2.extractLsb' 0 3 = 0#3) ∨ sc.bad = true := by
  obtain ⟨⟨d, neg⟩, hop⟩ := Option.isSome_iff_exists.1 hop
  have hbad := badEvex_eq_true_iff sc.bad p0 p1
  simp only [decodeAfterEscape, hop, hfamily, Bool.not_true, Bool.false_eq_true, if_false]
  by_cases h : badEvex sc.bad p0 p1 = true
  · rw [if_pos h]
    tauto
  · rw [if_neg h, decodeFamily_eq_ud_iff]
    tauto

/-! ### The prefixes -/

theorem badPrefix_of_prefixOf {b : Byte} {p : LegacyPrefix} (h : prefixOf b = some p) : badPrefix b = false := by
  revert p
  revert b
  decide

/-- U5: the scan reports whether a #UD byte stood among the prefixes. -/
theorem scanPrefixes_bad_iff (pre : List Byte) {b : Byte} (bs : List Byte)
    (hpre : ∀ p ∈ pre, Machine.isPrefixByte p = true) (hb : Machine.isPrefixByte b = false) :
    (scanPrefixes (pre ++ b :: bs)).bad = true ↔ ∃ p ∈ pre, badPrefix p = true := by
  simp only [Machine.isPrefixByte, Bool.or_eq_false_iff, Option.isSome_eq_false_iff, Option.isNone_iff_eq_none] at hb
  induction pre with
  | nil => simp [scanPrefixes, hb]
  | cons p pre ih =>
    have ih := ih fun q hq => hpre q (List.mem_cons_of_mem _ hq)
    have hp := hpre p List.mem_cons_self
    cases hlegacy : prefixOf p with
    | some l => simp [scanPrefixes, hlegacy, ih, badPrefix_of_prefixOf hlegacy]
    | none =>
      have hbad : badPrefix p = true := by simpa [Machine.isPrefixByte, hlegacy] using hp
      simp [scanPrefixes, hlegacy, hbad]

end Sys2Proof

namespace Sys2Proof.Machine

open Sys2Proof

theorem AllPrefixes.isPrefixByte {pre : List Byte} (h : AllPrefixes pre) : ∀ p ∈ pre, isPrefixByte p = true := by
  intro p hp
  simpa [Machine.isPrefixByte] using h p hp

/-- The decoder on prefixes and 62H answers #UD exactly when the bytes after 62H do. -/
theorem decode_eq_ud_iff {pre : List Byte} (h : AllPrefixes pre) (bs : List Byte) :
    decode (pre ++ 0x62#8 :: bs) = .ud ↔ decodeAfterEscape (scanPrefixes (pre ++ 0x62#8 :: bs)) bs = .ud := by
  have hrest := scanPrefixes_append pre 0x62#8 bs h.isPrefixByte (by decide)
  rw [decode, limitLength_eq_ud_iff, decodeEvex, hrest]
  simp

/-! ### The steps that fetch them -/

theorem raiseAtDecode_of_fits {e : Exception} {bs : List Byte} {s : State} (h : s.nextRipFits (shapeLength bs) = true) :
    raiseAtDecode e bs s = raiseException e s := if_pos h

theorem raiseAtDecode_of_notFits {e : Exception} {bs : List Byte} {s : State}
    (h : s.nextRipFits (shapeLength bs) = false) : raiseAtDecode e bs s = .refused .ripNotCanonical :=
  if_neg (by simp [h])

/-- Where ModRM is missing the length of R63 counts it. -/
theorem shapeLength_upTo_opcode {pre : List Byte} (h : AllPrefixes pre) (p0 p1 p2 op : Byte) :
    shapeLength (pre ++ [0x62#8, p0, p1, p2, op]) = pre.length + 6 := by
  have hrest := scanPrefixes_append pre 0x62#8 [p0, p1, p2, op] h.isPrefixByte (by decide)
  simp only [shapeLength, hrest, List.length_append, Nat.add_sub_cancel]

theorem decode_upTo_opcode {pre : List Byte} (h : AllPrefixes pre) (p0 p1 p2 op : Byte) :
    ∃ family, decode (pre ++ [0x62#8, p0, p1, p2, op]) = .truncated family := by
  have hrest := scanPrefixes_append pre 0x62#8 [p0, p1, p2, op] h.isPrefixByte (by decide)
  rw [decode, decodeEvex, hrest]
  exact ⟨_, rfl⟩

/-- Settles O4: the decoder's tests in the order of R66, the length of R63 from ModRM on, and the step on what the decoder
answers. -/
theorem illegalEncodingsAreUd : Obligations.IllegalEncodingsAreUd := by
  refine ⟨fun pre p0 p1 p2 op modrm rest hpre hfamily hop => ?_, fun pre p0 p1 p2 op modrm rest hpre q0 q1 q2 oq => ?_,
    fun s hraised hlaunch hend hud => ?_, fun s pre p0 p1 p2 op hraised hlaunch hend hpre hfetched hfits => ?_⟩
  · rw [decode_eq_ud_iff hpre, decodeAfterEscape_eq_ud_iff _ _ _ _ hfamily hop,
      scanPrefixes_bad_iff pre _ hpre.isPrefixByte (by decide)]
  · have hnone := shapeLength_eq [] q0 q1 q2 oq modrm rest (by simp)
    rw [List.nil_append] at hnone
    rw [shapeLength_eq pre p0 p1 p2 op modrm rest hpre.isPrefixByte, hnone, List.length_nil, Nat.zero_add, Nat.add_assoc]
  · rw [step_eq_execDecoded hraised hlaunch hend, hud]
    exact ⟨raiseAtDecode_of_fits, raiseAtDecode_of_notFits⟩
  · obtain ⟨family, hdecode⟩ := decode_upTo_opcode hpre p0 p1 p2 op
    rw [step_eq_execDecoded hraised hlaunch hend, hfetched, hdecode]
    exact execTruncated_of_beyondText fun _ => by rwa [shapeLength_upTo_opcode hpre]

/-- The decoder's length of R63 is the encoder's. -/
theorem shapeLength_encode {i : Instr} (h : i.form.src3.wf = true) (bs : List Byte) :
    shapeLength (encode i ++ bs) = i.ilen := by
  have hpre : ∀ p ∈ i.form.pfx.map prefixByte, isPrefixByte p = true := by simp [isPrefixByte]
  rw [encode_append, i.form.head_eq, List.cons_append, List.cons_append, List.cons_append, List.cons_append,
    List.cons_append, List.cons_append, List.nil_append]
  refine (shapeLength_eq _ _ _ _ _ _ _ hpre).trans ?_
  rw [Form.modrm, extraLength_extraBytes h, List.length_map]
  rfl

theorem execTruncated_of_notFits {bs : List Byte} {stop : FetchStop} {s : State}
    (h : s.nextRipFits (shapeLength bs) = false) : execTruncated true (bs, stop) s = .refused .ripNotCanonical := by
  simp [execTruncated, h]

/-- At least 15 bytes of this family, and the next one in the text and canonical: no further byte matters (log 13). -/
theorem execTruncated_of_long {bs : List Byte} {stop : FetchStop} {s : State}
    (hfits : s.nextRipFits (shapeLength bs) = true) (hlong : maxInstrLen ≤ bs.length) (hcanonical : stop ≠ .nonCanonical)
    (htext : stop ≠ .beyondText) : execTruncated true (bs, stop) s = raiseException .gp s := by
  simp [execTruncated, hfits, Nat.not_lt_of_le hlong, hcanonical, htext]

/-- Settles O6: the decoder reads the encoding back, so only its length decides; cut short it has no answer, and then the
number of fetched bytes decides. -/
theorem longInstructionRaisesGp : Obligations.LongInstructionRaisesGp := by
  refine ⟨fun i rest hsrc => shapeLength_encode hsrc rest, fun i rest hmask hsrc hlong =>
    ⟨decode_encode_of_long hmask hsrc hlong rest, fun s n hraised hlaunch hend hn hopcode hbytes => ?_⟩, rfl, rfl⟩
  rw [step_eq_execDecoded hraised hlaunch hend]
  rcases hfetched : s.fetched with ⟨bs, stop⟩
  simp only [hfetched] at hbytes ⊢
  by_cases hshort : n < i.ilen
  · have hdecode : decode bs = .truncated true := hbytes ▸ decode_take_encode hmask hsrc rest hopcode hshort
    have hlength : maxInstrLen ≤ bs.length := by
      rw [hbytes, List.length_take, List.length_append, length_encode]
      omega
    rw [hdecode]
    refine ⟨fun hfits => ⟨fun hwhole => ?_, fun _ hstop => ?_⟩, fun hrefused => ?_⟩
    · obtain ⟨hcanonical, htext⟩ := hwhole.resolve_left (Nat.not_le_of_lt hshort)
      exact execTruncated_of_long hfits hlength hcanonical htext
    · exact hstop ▸ execTruncated_of_beyondText fun _ => hfits
    · rcases hrefused with hfits | ⟨_, hstop⟩
      · exact execTruncated_of_notFits hfits
      · exact hstop ▸ execTruncated_of_nonCanonical true bs s
  · have hdecode : decode bs = .gp0 := by
      rw [hbytes, take_encode_append i rest (Nat.le_of_not_lt hshort), decode_encode_of_long hmask hsrc hlong]
    rw [hdecode]
    refine ⟨fun hfits => ⟨fun _ => raiseAtDecode_of_fits hfits, fun h => absurd h hshort⟩, fun hrefused => ?_⟩
    exact raiseAtDecode_of_notFits (hrefused.resolve_right fun h => hshort h.1)

end Sys2Proof.Machine

/-!
Memory operands (20_memory.md R32 to R43): the bytes of an element, the tests of an operand's addresses and needed bytes
and what each failed test answers, and a memory form as the register form on the elements it reads (R84).
-/

namespace Sys2Proof.Machine

open Sys2Proof

/-! ### Elements (R32) -/

/-- R32: an element whose two bytes can be read is the byte at the higher address over the byte at the lower one. -/
theorem State.element_of_bytes {s : State} {la : Addr} {lo hi : Byte} (hlo : s.readByte .read la = .byte lo)
    (hhi : s.readByte .read (la + 1) = .byte hi) : s.element la = hi ++ lo := by
  rw [State.element, hlo, hhi]
  rfl

theorem elementAddress_full_add_one (la : Addr) (j : Nat) :
    elementAddress false la j + 1 = la + BitVec.ofNat 64 (2 * j + 1) := by
  rw [elementAddress, if_neg Bool.false_ne_true, BitVec.add_assoc, BitVec.ofNat_add]
  rfl

/-- Settles O50: the element is its two bytes, the one at the higher address on top. -/
theorem elementsAreLittleEndian : Obligations.ElementsAreLittleEndian := by
  intro s la j lo hi hlo hhi
  rw [← elementAddress_full_add_one] at hhi
  have helement : s.element (elementAddress false la j) = hi ++ lo := State.element_of_bytes hlo hhi
  rw [helement]
  exact ⟨BitVec.extractLsb'_append_eq_right, BitVec.extractLsb'_append_eq_left⟩

/-! ### The tests of a memory operand (R35, R36, R39 to R43) -/

/-- R35, R38: every byte of the operand is tested, needed or not. -/
theorem State.operandCanonical_eq_false_iff (s : State) (f : Form) (bcst : Bool) (la : Addr) :
    s.operandCanonical f bcst la = false ↔
      ∃ k < operandSize f.vl bcst, s.canonical (la + BitVec.ofNat 64 k) = false := by
  simp [State.operandCanonical]

/-- R36, R133: an override decides the segment, without one the base register. -/
theorem usesStackSegment_iff (f : Form) (m : MemOperand) :
    usesStackSegment f m = true ↔
      segOverride f.pfx = some .ss ∨ (segOverride f.pfx = none ∧ stackBase m = true) := by
  cases hseg : segOverride f.pfx with
  | none => simp [usesStackSegment, hseg]
  | some p => cases p <;> simp [usesStackSegment, hseg]

section
variable {s : State} {l : List Addr}

/-- R41: device memory is looked for once every needed byte translates, absent bytes or not (log 27). -/
theorem State.loadStatus_eq_device (hphys : ∀ a ∈ l, ∃ pa, s.translate .read a = .phys pa)
    (h : ∃ a ∈ l, s.readByte .read a = .device) : s.loadStatus l = .device := by
  have hdevice : (l.any fun a => s.readByte .read a == .device) = true := by simpa using h
  rw [State.loadStatus, (s.lowestFault_eq_none l).2 hphys]
  exact if_pos hdevice

/-- R43. -/
theorem State.loadStatus_eq_absent (hphys : ∀ a ∈ l, ∃ pa, s.translate .read a = .phys pa)
    (hdev : ∀ a ∈ l, s.readByte .read a ≠ .device) (h : ∃ a ∈ l, s.readByte .read a = .absent) :
    s.loadStatus l = .absent := by
  have hdevice : ¬ (l.any fun a => s.readByte .read a == .device) = true := by simpa using hdev
  have habsent : (l.any fun a => s.readByte .read a == .absent) = true := by simpa using h
  rw [State.loadStatus, (s.lowestFault_eq_none l).2 hphys]
  exact (if_neg hdevice).trans (if_pos habsent)

end

/-! ### What a memory form answers when a test fails (R49) -/

section
variable {f : Form} {bcst : Bool} {m : MemOperand} {s : State}

/-- An enabled memory form has passed every check that needs no operand. -/
theorem execPacked_of_mem (henabled : SimdEnabled f s) (hsrc : f.src3 = .mem bcst m) :
    execPacked f s = execMemory f bcst m s := by
  obtain ⟨_, _, hm, hts, hos, hf, hfp, hvl, hregs⟩ := henabled
  have hreal : s.realOrVm86 = false := State.realOrVm86_of_in64BitMode hm
  have hfeature : s.featureMissing f = false := State.featureMissing_eq_false hf hfp hvl
  simp [execPacked, hreal, hm, hfeature, hos, hts, hregs, hsrc]

theorem execMemory_of_nonCanonical (h : s.operandCanonical f bcst (s.linearAddress f bcst m) = false) :
    execMemory f bcst m s = raiseException (if usesStackSegment f m then .ss else .gp) s := by
  simp [execMemory, h]

theorem execMemory_of_device (hcanonical : s.operandCanonical f bcst (s.linearAddress f bcst m) = true)
    (h : s.loadStatus (s.neededBytes f bcst (s.linearAddress f bcst m)) = .device) :
    execMemory f bcst m s = .refused .deviceMemory := by
  simp [execMemory, hcanonical, h]

theorem execMemory_of_absent (hcanonical : s.operandCanonical f bcst (s.linearAddress f bcst m) = true)
    (h : s.loadStatus (s.neededBytes f bcst (s.linearAddress f bcst m)) = .absent) :
    execMemory f bcst m s = .fault .absentMemory := by
  simp [execMemory, hcanonical, h]

end

/-- Settles O45: the address test comes first, and the segment picks the exception. -/
theorem nonCanonicalOperandRaises : Obligations.NonCanonicalOperandRaises := by
  intro i s bcst m k hsrc henabled hk hbyte
  have hcanonical := (s.operandCanonical_eq_false_iff i.form bcst (s.linearAddress i.form bcst m)).2 ⟨k, hk, hbyte⟩
  have hexec : exec i s = raiseException (if usesStackSegment i.form m then .ss else .gp) s := by
    rw [exec_eq, execPacked_of_mem henabled hsrc, execMemory_of_nonCanonical hcanonical]
  rw [hexec, ← usesStackSegment_iff]
  refine ⟨fun hstack => ?_, fun hstack => ?_, rfl, rfl⟩
  · rw [if_pos hstack]
    rfl
  · rw [if_neg hstack]
    rfl

/-- Settles O47: no needed byte page-faults, so a device byte decides, and without one an absent byte. -/
theorem deviceAndAbsentOperandsStop : Obligations.DeviceAndAbsentOperandsStop := by
  intro i s bcst m hsrc henabled hcanonical hphys
  rw [exec_eq, execPacked_of_mem henabled hsrc]
  exact ⟨fun hdevice => execMemory_of_device hcanonical (State.loadStatus_eq_device hphys hdevice),
    fun hdevice habsent => execMemory_of_absent hcanonical (State.loadStatus_eq_absent hphys hdevice habsent)⟩

/-! ### No active lane (R35, R85) -/

@[simp] theorem FpFlags.unmasked_empty (masks : BitVec 6) : FpFlags.empty.unmasked masks = false := by
  simp [FpFlags.unmasked]

/-- With no active lane no flag is detected, so the instruction completes and ORs none into MXCSR. -/
theorem execLanes_of_noneActive {f : Form} {s : State} (t3 : Nat → Fp16) (h : s.activeLanes f = []) :
    execLanes f t3 s = .next (s.complete f t3 .empty) := by
  cases her : f.er with
  | some rc => exact execLanes_of_er s t3 (by rw [her]; rfl)
  | none =>
    have hdetected : s.detected f t3 = .empty := by rw [State.detected, h, List.foldr_nil]
    have hpre : FpFlags.empty.pre = .empty := rfl
    have hpost : FpFlags.empty.post = .empty := rfl
    simp [execLanes, her, hdetected, hpre, hpost]

/-- An element of the destination after completion (R83, R86). -/
theorem State.lane_complete_dest (s : State) (f : Form) (t3 : Nat → Fp16) (a : FpFlags) {j : Nat}
    (hj : j < f.vl.lanes) : lane ((s.complete f t3 a).zmmAt f.dest) j = s.newLane f t3 j := by
  rw [State.zmmAt, State.complete_zmmReg_self]
  exact lane_packLanes _ (lanes_le f.vl) hj

/-- R85. -/
theorem State.newLane_of_not_active {s : State} {f : Form} (t3 : Nat → Fp16) {j : Nat} (hj : j < f.vl.lanes)
    (h : ¬ Active f s j) : s.newLane f t3 j = inactiveLane f s j := by
  have hoff : ¬ s.laneActive f.mask j = true := fun hon => h ⟨hj, (s.laneActive_iff f.mask j).1 hon⟩
  rw [State.newLane, if_neg hoff, inactiveLane]
  rfl

/-- Settles O35: no byte is needed, so the operand can be read, and no lane detects a flag or is written. -/
theorem fullyMaskedMemoryFormCompletes : Obligations.FullyMaskedMemoryFormCompletes := by
  intro i s bcst m hsrc henabled hcanonical hnone
  have hlanes : s.activeLanes i.form = [] :=
    List.eq_nil_iff_forall_not_mem.2 fun j hj => hnone j ((s.mem_activeLanes i.form j).1 hj)
  have hneeded : ∀ la, s.neededBytes i.form bcst la = [] := fun la => by
    rw [State.neededBytes, hlanes, List.flatMap_nil]
  have hreadable : OperandReadable i.form s := by simp [OperandReadable, hsrc, hcanonical, hneeded]
  refine ⟨s.complete i.form (thirdElement i.form s) .empty, ?_, ?_, rfl, rfl, fun j hj => ?_⟩
  · rw [exec_eq, execPacked_enabled henabled hreadable, execLanes_of_noneActive _ hlanes]
  · simp
  · rw [State.lane_complete_dest s _ _ _ hj, State.newLane_of_not_active _ hj (hnone j)]

/-! ### A memory form and a register form (R33, R84) -/

section
variable {f : Form} {s : State} {t3 t3' : Nat → Fp16}

theorem State.laneResult_congr {j : Nat} (h : t3 j = t3' j) : s.laneResult f t3 j = s.laneResult f t3' j := by
  rw [State.laneResult, State.laneResult, h]

/-- The flags depend on the third source in active lanes only (R85). -/
theorem State.detected_congr (h : ∀ j, Active f s j → t3 j = t3' j) : s.detected f t3 = s.detected f t3' :=
  List.foldr_ext _ _ _ fun j hj _ => by rw [State.laneResult_congr (h j ((s.mem_activeLanes f j).1 hj))]

/-- So does the destination. -/
theorem State.newDest_congr (h : ∀ j, Active f s j → t3 j = t3' j) : s.newDest f t3 = s.newDest f t3' := by
  have hlanes : packLanes (s.newLane f t3) f.vl.lanes = packLanes (s.newLane f t3') f.vl.lanes :=
    packLanes_congr fun j hj => by
      by_cases hactive : Active f s j
      · rw [State.newLane, State.newLane, State.laneResult_congr (h j hactive)]
      · rw [State.newLane_of_not_active _ hj hactive, State.newLane_of_not_active _ hj hactive]
  rw [State.newDest, State.newDest, hlanes]

theorem execLanes_congr (h : ∀ j, Active f s j → t3 j = t3' j) : execLanes f t3 s = execLanes f t3' s := by
  have hcomplete : ∀ a, s.complete f t3 a = s.complete f t3' a := fun a => by
    rw [State.complete, State.complete, State.newDest_congr h]
  simp only [execLanes, State.detected_congr h, hcomplete]

end

/-- Given the third-source elements, where operand 3 lies shows in RIP alone, through the length (R63). -/
theorem execLanes_src3 (f : Form) (src : Src3) (t3 : Nat → Fp16) (s : State) (a : Addr) :
    mapNext (·.setRip a) (execLanes { f with src3 := src } t3 s) = mapNext (·.setRip a) (execLanes f t3 s) := by
  simp only [execLanes, apply_ite (mapNext _)]
  rfl

/-- The register form names the same registers and one more. -/
theorem SimdEnabled.regForm {f : Form} {s : State} {r : VReg} (h : SimdEnabled f s) (hr : r.toNat < s.config.nVec) :
    SimdEnabled { f with src3 := .reg r } s := by
  obtain ⟨hpe, hvm, hm, hts, hos, hf, hfp, hvl, hregs⟩ := h
  obtain ⟨hdest, hsrc2, _, hmask⟩ := (s.hasRegisters_iff f).1 hregs
  refine ⟨hpe, hvm, hm, hts, hos, hf, hfp, hvl, (s.hasRegisters_iff _).2 ⟨hdest, hsrc2, ?_, hmask⟩⟩
  rintro _ ⟨⟩
  exact hr

/-- Settles O52: both forms run the same lanes on third-source elements that agree where a lane is active. -/
theorem memoryFormActsAsRegisterForm : Obligations.MemoryFormActsAsRegisterForm := by
  intro d neg vl o bcst m r s t hsrc hr henabled hreadable helements hexec
  set f := plainForm d neg vl o
  have hsrc : f.src3 = .mem bcst m := hsrc
  have hmem : exec (mkPlain d neg vl o) s = execLanes f (thirdElement f s) s := by
    rw [exec_eq, form_mkPlain, execPacked_enabled henabled hreadable]
  have hreg : exec (mkPlain d neg vl { o with src3 := .reg r }) s =
      execLanes { f with src3 := .reg r } (fun j => lane (s.zmmAt r) j) s := by
    rw [exec_eq, form_mkPlain]
    exact execPacked_enabled (henabled.regForm hr) trivial
  have hagree : ∀ j, Active f s j → lane (s.zmmAt r) j = thirdElement f s j := fun j hj => by
    simpa only [thirdElement, hsrc] using helements j hj
  obtain ⟨t', ht'⟩ := execLanes_next { f with src3 := .reg r } (fun j => lane (s.zmmAt r) j) s
  have hsame := execLanes_src3 f (.reg r) (fun j => lane (s.zmmAt r) j) s 0
  rw [ht', execLanes_congr hagree, ← hmem, hexec] at hsame
  have hstate : t'.setRip 0 = t.setRip 0 := by simpa only [mapNext, Host.Outcome.next.injEq] using hsame
  have hzmm := congrArg State.zmm hstate
  have hmxcsr := congrArg State.mxcsr hstate
  have hraised := congrArg State.raised hstate
  exact ⟨t', hreg.trans ht', hzmm, hmxcsr, hraised⟩

end Sys2Proof.Machine

/-!
The decoder against the encoder (30_encoding.md R50 to R66): an encoding decodes to its instruction, and the bytes of an
accepted instruction are its encoding.
-/

namespace Sys2Proof

/-! ### Decoding an encoding -/

theorem Instr.wf_iff (i : Instr) :
    i.wf = true ↔ i.form.mask.wf = true ∧ i.form.src3.wf = true ∧ i.ilen ≤ maxInstrLen := by
  simp only [Instr.wf, Form.wf, Instr.ilen, Bool.and_eq_true, decide_eq_true_eq, and_assoc]

/-- Settles O1: the decoder reads back the six fixed bytes, then operand 3, and the length is within the limit. -/
theorem decodeReadsBackEncode : Obligations.DecodeReadsBackEncode := by
  intro i rest hwf
  obtain ⟨hmask, hsrc, hlen⟩ := i.wf_iff.1 hwf
  rw [decode, encode_append, (decodeEvex_encode hmask _).1 (Src3.readFrom_extraBytes hsrc rest)]
  exact if_pos hlen

/-- A word that spells the encoding of an instruction, whatever bytes fill it up. -/
theorem decodeTableWord_of_encode {nbits w : Nat} {i : Instr} (rest : List Byte) (hwf : i.wf = true)
    (hbytes : wordBytes nbits w = encode i ++ rest) : decodeTableWord nbits w = some i := by
  rw [decodeTableWord, hbytes, decodeReadsBackEncode i rest hwf]

/-- Settles O7: each word spells the encoding of its instruction. -/
theorem specWordsDecode : Obligations.SpecWordsDecode :=
  ⟨decodeTableWord_of_encode (List.replicate 9 0) (by decide) (by decide),
    decodeTableWord_of_encode (List.replicate 9 0) (by decide) (by decide),
    decodeTableWord_of_encode (List.replicate 9 0) (by decide) (by decide),
    decodeTableWord_of_encode (List.replicate 9 0) (by decide) (by decide),
    decodeTableWord_of_encode (List.replicate 8 0) (by decide) (by decide)⟩

/-! ### The bytes of what the decoder reads -/

theorem opcodeByte_of_opcodeOf {op : Byte} {d : Digits} {neg : Bool} (h : opcodeOf op = some (d, neg)) :
    opcodeByte d neg = op := by
  have hcodes : ∀ (op : Byte) (p : Digits × Bool), opcodeOf op = some p → opcodeByte p.1 p.2 = op := by decide
  exact hcodes op (d, neg) h

theorem maskingOf_eq_some {z : Bool} {aaa : BitVec 3} {m : Masking} (h : maskingOf z aaa = some m) :
    m.wf = true ∧ m.z = z ∧ m.aaa = aaa := by
  by_cases haaa : aaa = 0#3
  · subst haaa
    cases z with
    | false => cases h; exact ⟨rfl, rfl, rfl⟩
    | true => cases h
  · have hwf : (aaa != 0) = true := by simpa using haaa
    rw [maskingOf, if_neg haaa, Option.some.injEq] at h
    cases z with
    | false => subst h; exact ⟨hwf, rfl, rfl⟩
    | true => subst h; exact ⟨hwf, rfl, rfl⟩

theorem vecLenBits_of_vecLenOf {ll : BitVec 2} {vl : VecLen} (h : vecLenOf ll = some vl) : vecLenBits vl = ll := by
  revert vl
  revert ll
  decide

theorem roundModeBits_roundModeOf : ∀ b : BitVec 2, roundModeBits (roundModeOf b) = b := by decide

theorem bytes32_le32 (b0 b1 b2 b3 : Byte) : bytes32 (le32 b0 b1 b2 b3) = [b0, b1, b2, b3] := by
  simp only [bytes32, le32, List.cons.injEq, and_true]
  refine ⟨?_, ?_, ?_, ?_⟩ <;>
  · apply BitVec.eq_of_getLsbD_eq
    intro i hi
    simp only [BitVec.getLsbD_append, BitVec.getLsbD_extractLsb']
    grind

theorem bytes32_prefix {bs : List Byte} {d : BitVec 32} (h : readDisp32 bs = some d) : bytes32 d <+: bs := by
  match bs with
  | b0 :: b1 :: b2 :: b3 :: bs =>
    obtain rfl : le32 b0 b1 b2 b3 = d := by simpa [readDisp32] using h
    rw [bytes32_le32]
    exact ⟨bs, rfl⟩

theorem readDisp_eq_some {mod : BitVec 2} (hmod : mod ≠ 3#2) {bs : List Byte} {d : Disp} (h : readDisp mod bs = some d) :
    d.mod = mod ∧ d.bytes <+: bs := by
  have hmods : ∀ mod : BitVec 2, mod ≠ 3#2 → mod = 0#2 ∨ mod = 1#2 ∨ mod = 2#2 := by decide
  rcases hmods mod hmod with rfl | rfl | rfl
  · obtain rfl : Disp.none = d := by simpa [readDisp] using h
    exact ⟨rfl, List.nil_prefix⟩
  · cases bs with
    | nil => simp [readDisp] at h
    | cons b bs =>
      obtain rfl : Disp.d8 b = d := by simpa [readDisp] using h
      exact ⟨rfl, bs, rfl⟩
  · match bs with
    | b0 :: b1 :: b2 :: b3 :: bs =>
      obtain rfl : Disp.d32 (le32 b0 b1 b2 b3) = d := by simpa [readDisp] using h
      exact ⟨rfl, bytes32_prefix rfl⟩

theorem dispFits_of_mod {base : Gpr} {d : Disp} (h : ¬ (d.mod = 0#2 ∧ base.extractLsb' 0 3 = 5#3)) :
    dispFits base d = true := by
  cases d with
  | none => simpa [dispFits, Disp.mod] using h
  | _ => rfl

/-! ### Operand 3 -/

/-- Operand 3 is encodable, and these fields of P0 and ModRM and the first of the bytes after ModRM are its encoding. -/
structure Src3.SpelledBy (src : Src3) (x b : BitVec 1) (mod : BitVec 2) (rm : BitVec 3) (bs : List Byte) : Prop where
  wf : src.wf = true
  x_eq : src.x = x
  b_eq : src.b = b
  mod_eq : src.mod = mod
  rm_eq : src.rm = rm
  bytes : src.extraBytes <+: bs

/-- A register number of four or five bits, taken apart. -/
theorem extractLsb'_gpr : ∀ (hi : BitVec 1) (lo : BitVec 3),
    (hi ++ lo : Gpr).extractLsb' 3 1 = hi ∧ (hi ++ lo : Gpr).extractLsb' 0 3 = lo := by decide

theorem extractLsb'_vreg : ∀ (hi mid : BitVec 1) (lo : BitVec 3),
    (hi ++ mid ++ lo : VReg).extractLsb' 4 1 = hi ∧ (hi ++ mid ++ lo : VReg).extractLsb' 3 1 = mid ∧
      (hi ++ mid ++ lo : VReg).extractLsb' 0 3 = lo := by decide

@[simp] theorem ofBool_of_beq_one : ∀ x : BitVec 1, BitVec.ofBool (x == 1#1) = x := by decide

theorem append_extractLsb'_sib : ∀ sib : Byte,
    (sib.extractLsb' 6 2 ++ sib.extractLsb' 3 3 ++ sib.extractLsb' 0 3 : Byte) = sib := by decide

theorem readSib_spelledBy {x b : BitVec 1} {mod : BitVec 2} (hmod : mod ≠ 3#2) {sib : Byte} {bs : List Byte}
    {m : MemOperand} (h : readSib x b mod sib bs = some m) (bcst : Bool) :
    (Src3.mem bcst m).SpelledBy x b mod 4#3 (sib :: bs) := by
  by_cases hbase : mod = 0#2 ∧ sib.extractLsb' 0 3 = 5#3
  · rw [readSib, if_pos hbase, Option.map_eq_some_iff] at h
    obtain ⟨d, hd, rfl⟩ := h
    obtain ⟨hx, hindex⟩ := extractLsb'_gpr x (sib.extractLsb' 3 3)
    refine ⟨rfl, hx, ofBool_of_beq_one b, hbase.1.symm, rfl, ?_⟩
    simp only [Src3.extraBytes, hindex, ← hbase.2, append_extractLsb'_sib]
    exact (List.prefix_cons_inj sib).2 (bytes32_prefix hd)
  · rw [readSib_of_base hbase, Option.map_eq_some_iff] at h
    obtain ⟨d, hd, rfl⟩ := h
    obtain ⟨hdmod, hbytes⟩ := readDisp_eq_some hmod hd
    obtain ⟨hx, hindex⟩ := extractLsb'_gpr x (sib.extractLsb' 3 3)
    obtain ⟨hb, hlow⟩ := extractLsb'_gpr b (sib.extractLsb' 0 3)
    refine ⟨dispFits_of_mod (by rwa [hdmod, hlow]), hx, hb, hdmod, rfl, ?_⟩
    simp only [Src3.extraBytes, hindex, hlow, append_extractLsb'_sib]
    exact (List.prefix_cons_inj sib).2 hbytes

theorem readMem_spelledBy {x b : BitVec 1} {mod : BitVec 2} (hmod : mod ≠ 3#2) {rm : BitVec 3} {bs : List Byte}
    {m : MemOperand} (h : readMem x b mod rm bs = some m) (bcst : Bool) :
    (Src3.mem bcst m).SpelledBy x b mod rm bs := by
  by_cases hsib : rm = 4#3
  · subst hsib
    cases bs with
    | nil => simp [readMem] at h
    | cons sib bs => exact readSib_spelledBy hmod (by simpa [readMem] using h) bcst
  · by_cases hrip : mod = 0#2 ∧ rm = 5#3
    · simp only [readMem, if_neg hsib, if_pos hrip, Option.map_eq_some_iff] at h
      obtain ⟨d, hd, rfl⟩ := h
      exact ⟨rfl, ofBool_of_beq_one x, ofBool_of_beq_one b, hrip.1.symm, hrip.2.symm, bytes32_prefix hd⟩
    · rw [readMem_of_base hsib hrip, Option.map_eq_some_iff] at h
      obtain ⟨d, hd, rfl⟩ := h
      obtain ⟨hdmod, hbytes⟩ := readDisp_eq_some hmod hd
      obtain ⟨hb, hlow⟩ := extractLsb'_gpr b rm
      refine ⟨?_, ofBool_of_beq_one x, hb, hdmod, hlow, hbytes⟩
      have hfits : dispFits (b ++ rm) d = true := dispFits_of_mod (by rwa [hdmod, hlow])
      simp [Src3.wf, MemOperand.wf, hlow, hsib, hfits]

theorem reg_spelledBy (p0 modrm : Byte) (hmod : modrm.extractLsb' 6 2 = 3#2) (bs : List Byte) :
    (Src3.reg (src3Of p0 modrm)).SpelledBy (evexX p0) (evexB p0) (modrm.extractLsb' 6 2) (modrm.extractLsb' 0 3) bs := by
  obtain ⟨hx, hb, hrm⟩ := extractLsb'_vreg (evexX p0) (evexB p0) (modrm.extractLsb' 0 3)
  exact ⟨rfl, hx, hb, hmod.symm, hrm, List.nil_prefix⟩

/-! ### The form -/

/-- The form has the values that the fields of P0, P1, P2, ModRM and the bytes after ModRM give (R52 to R61). -/
structure Form.SpelledBy (f : Form) (p0 p1 p2 modrm : Byte) (bs : List Byte) : Prop where
  dest : f.dest = destOf p0 modrm
  src2 : f.src2 = src2Of p1 p2
  mask : maskingOf (p2.getLsbD 7) (p2.extractLsb' 0 3) = some f.mask
  ll : f.ll = p2.extractLsb' 5 2
  b : f.b = p2.getLsbD 4
  src3 : f.src3.SpelledBy (evexX p0) (evexB p0) (modrm.extractLsb' 6 2) (modrm.extractLsb' 0 3) bs

/-- The row that the decoder answers has the digits, the sign and the prefixes it is given, and is spelled by the bytes. -/
theorem decodeFamily_spelledBy {pfx : List LegacyPrefix} {d : Digits} {neg : Bool} {p0 p1 p2 modrm : Byte}
    {bs : List Byte} {i : Instr} (h : decodeFamily pfx d neg p0 p1 p2 modrm bs = .form i) :
    i.form.digits = d ∧ i.form.neg = neg ∧ i.form.pfx = pfx ∧ i.form.SpelledBy p0 p1 p2 modrm bs := by
  rw [decodeFamily] at h
  cases hmask : maskingOf (p2.getLsbD 7) (p2.extractLsb' 0 3) with
  | none => rw [hmask] at h; cases h
  | some mask =>
    rw [hmask] at h
    simp only at h
    by_cases hmod : modrm.extractLsb' 6 2 = 3#2
    · have hsrc := reg_spelledBy p0 modrm hmod bs
      rw [if_pos hmod, decodeReg] at h
      by_cases hb : p2.getLsbD 4 = true
      · rw [if_pos hb, DecodeResult.form.injEq] at h
        subst h
        rw [form_mkEr]
        exact ⟨rfl, rfl, rfl, rfl, rfl, hmask, roundModeBits_roundModeOf _, hb.symm, hsrc⟩
      · rw [if_neg hb, decodePlain] at h
        cases hvl : vecLenOf (p2.extractLsb' 5 2) with
        | none => simp [hvl] at h
        | some vl =>
          simp only [hvl, DecodeResult.form.injEq] at h
          subst h
          rw [form_mkPlain]
          exact ⟨rfl, rfl, rfl, rfl, rfl, hmask, vecLenBits_of_vecLenOf hvl, (Bool.eq_false_iff.2 hb).symm, hsrc⟩
    · rw [if_neg hmod, decodeMem] at h
      cases hvl : vecLenOf (p2.extractLsb' 5 2) with
      | none => simp [hvl] at h
      | some vl =>
        simp only [hvl] at h
        cases hm : readMem (evexX p0) (evexB p0) (modrm.extractLsb' 6 2) (modrm.extractLsb' 0 3) bs with
        | none => simp [hm] at h
        | some m =>
          simp only [hm, DecodeResult.form.injEq] at h
          subst h
          rw [form_mkPlain]
          exact ⟨rfl, rfl, rfl, rfl, rfl, hmask, vecLenBits_of_vecLenOf hvl, rfl, readMem_spelledBy hmod hm _⟩

namespace Form.SpelledBy

variable {f : Form} {p0 p1 p2 modrm : Byte} {bs : List Byte}

theorem p0_eq (h : f.SpelledBy p0 p1 p2 modrm bs) (hmmm : p0.extractLsb' 0 3 = 6#3) (hfixed : p0.getLsbD 3 = false) :
    f.p0 = p0 := by
  obtain ⟨htop, hnext, -⟩ :=
    extractLsb'_vreg (~~~(p0.extractLsb' 4 1)) (~~~(p0.extractLsb' 7 1)) (modrm.extractLsb' 3 3)
  have hfields : ∀ p0 : Byte, p0.extractLsb' 0 3 = 6#3 → p0.getLsbD 3 = false →
      (~~~(~~~(p0.extractLsb' 7 1)) ++ ~~~(evexX p0) ++ ~~~(evexB p0) ++ ~~~(~~~(p0.extractLsb' 4 1)) ++ 0b0110#4 : Byte) =
        p0 := by decide
  rw [Form.p0, encodeP0, h.dest, h.src3.x_eq, h.src3.b_eq, destOf, htop, hnext, hfields p0 hmmm hfixed]

theorem p1_eq (h : f.SpelledBy p0 p1 p2 modrm bs) (hpp : p1.extractLsb' 0 2 = 1#2) (hw : p1.getLsbD 7 = false)
    (hfixed : p1.getLsbD 2 = true) : f.p1 = p1 := by
  have hlow : ∀ (v : BitVec 1) (vvvv : BitVec 4), (v ++ vvvv : VReg).extractLsb' 0 4 = vvvv := by decide
  have hfields : ∀ p1 : Byte, p1.extractLsb' 0 2 = 1#2 → p1.getLsbD 7 = false → p1.getLsbD 2 = true →
      (0#1 ++ ~~~(~~~(p1.extractLsb' 3 4)) ++ 0b101#3 : Byte) = p1 := by decide
  rw [Form.p1, encodeP1, h.src2, src2Of, hlow, hfields p1 hpp hw hfixed]

theorem p2_eq (h : f.SpelledBy p0 p1 p2 modrm bs) : f.p2 = p2 := by
  have htop : ∀ (v : BitVec 1) (vvvv : BitVec 4), (v ++ vvvv : VReg).extractLsb' 4 1 = v := by decide
  have hfields : ∀ p2 : Byte, (BitVec.ofBool (p2.getLsbD 7) ++ p2.extractLsb' 5 2 ++ BitVec.ofBool (p2.getLsbD 4) ++
      ~~~(~~~(p2.extractLsb' 3 1)) ++ p2.extractLsb' 0 3 : Byte) = p2 := by decide
  obtain ⟨-, hz, haaa⟩ := maskingOf_eq_some h.mask
  rw [Form.p2, encodeP2, hz, h.ll, h.b, haaa, h.src2, src2Of, htop, hfields]

theorem modrm_eq (h : f.SpelledBy p0 p1 p2 modrm bs) : f.modrm = modrm := by
  obtain ⟨-, -, hreg⟩ :=
    extractLsb'_vreg (~~~(p0.extractLsb' 4 1)) (~~~(p0.extractLsb' 7 1)) (modrm.extractLsb' 3 3)
  rw [Form.modrm, h.src3.mod_eq, h.dest, destOf, hreg, h.src3.rm_eq, append_extractLsb'_sib]

theorem mask_wf (h : f.SpelledBy p0 p1 p2 modrm bs) : f.mask.wf = true := by
  obtain ⟨hwf, -, -⟩ := maskingOf_eq_some h.mask
  exact hwf

end Form.SpelledBy

/-! ### What the decoder accepts -/

theorem inFamily_eq_true_iff (p0 p1 : Byte) :
    inFamily p0 p1 = true ↔ p0.extractLsb' 0 3 = 6#3 ∧ p1.extractLsb' 0 2 = 1#2 ∧ p1.getLsbD 7 = false := by
  simp only [inFamily, Bool.and_eq_true, beq_iff_eq, Bool.not_eq_true', and_assoc]

theorem badEvex_eq_false_iff (bad : Bool) (p0 p1 : Byte) :
    badEvex bad p0 p1 = false ↔ bad = false ∧ p0.getLsbD 3 = false ∧ p1.getLsbD 2 = true := by
  simp only [badEvex, Bool.or_eq_false_iff, Bool.not_eq_false', and_assoc]

theorem limitLength_eq_form_iff (r : DecodeResult) (i : Instr) :
    limitLength r = .form i ↔ r = .form i ∧ i.ilen ≤ maxInstrLen := by
  cases r with
  | form j =>
    simp only [limitLength]
    split <;> simp only [DecodeResult.form.injEq, reduceCtorEq, false_iff] <;> grind
  | _ => simp [limitLength]

/-- The bytes that the decoder goes on with after the prefixes, when it accepts them (R66). -/
theorem decodeEvex_eq_form_iff (sc : PrefixScan) (i : Instr) :
    decodeEvex sc = .form i ↔ ∃ p0 p1 p2 op modrm rest d neg, sc.rest = 0x62#8 :: p0 :: p1 :: p2 :: op :: modrm :: rest ∧
      opcodeOf op = some (d, neg) ∧ inFamily p0 p1 = true ∧ badEvex sc.bad p0 p1 = false ∧
      decodeFamily sc.pfx d neg p0 p1 p2 modrm rest = .form i := by
  constructor
  · intro h
    rw [decodeEvex] at h
    split at h
    · cases h
    · next esc tail hrest =>
      split at h
      · cases h
      · next hesc =>
        obtain rfl : esc = 0x62#8 := not_not.1 hesc
        rw [decodeAfterEscape.eq_def] at h
        split at h
        · next p0 p1 p2 op modrm rest =>
          split at h
          · cases h
          · next d neg hop =>
            split at h
            · cases h
            · next hfamily =>
              split at h
              · cases h
              · next hgood =>
                exact ⟨p0, p1, p2, op, modrm, rest, d, neg, hrest, hop, by simpa using hfamily, by simpa using hgood, h⟩
        · cases h
        · cases h
  · rintro ⟨p0, p1, p2, op, modrm, rest, d, neg, hrest, hop, hfamily, hgood, h⟩
    simp [decodeEvex, hrest, decodeAfterEscape, hop, hfamily, hgood, h]

theorem prefixByte_of_prefixOf {b : Byte} {p : LegacyPrefix} (h : prefixOf b = some p) : prefixByte p = b := by
  revert p
  revert b
  decide

/-- Where no prefixes are #UD the scan splits the bytes into the prefixes and the rest. -/
theorem scanPrefixes_split {bs : List Byte} (h : (scanPrefixes bs).bad = false) :
    bs = (scanPrefixes bs).pfx.map prefixByte ++ (scanPrefixes bs).rest := by
  induction bs with
  | nil => rfl
  | cons b bs ih =>
    rw [scanPrefixes] at h ⊢
    cases hp : prefixOf b with
    | some p =>
      simp only [hp] at h ⊢
      rw [List.map_cons, List.cons_append, ← ih h, prefixByte_of_prefixOf hp]
    | none =>
      cases hb : badPrefix b with
      | true => simp [hp, hb] at h
      | false => simp

/-- Settles O2: every field of the accepted bytes is a field of the form, so the form's bytes are those. -/
theorem acceptedBytesAreTheEncoding : Obligations.AcceptedBytesAreTheEncoding := by
  intro bs i h
  rw [decode, limitLength_eq_form_iff, decodeEvex_eq_form_iff] at h
  obtain ⟨⟨p0, p1, p2, op, modrm, rest, d, neg, hrest, hop, hfamily, hgood, hdecode⟩, hlen⟩ := h
  obtain ⟨hmmm, hpp, hw⟩ := (inFamily_eq_true_iff p0 p1).1 hfamily
  obtain ⟨hbad, hp0, hp1⟩ := (badEvex_eq_false_iff _ p0 p1).1 hgood
  obtain ⟨hd, hneg, hpfx, hspelled⟩ := decodeFamily_spelledBy hdecode
  have hhead : i.form.head = [0x62#8, p0, p1, p2, op, modrm] := by
    rw [i.form.head_eq, hspelled.p0_eq hmmm hp0, hspelled.p1_eq hpp hw hp1, hspelled.p2_eq, hspelled.modrm_eq, hd, hneg,
      opcodeByte_of_opcodeOf hop]
  have hprefix : encode i <+: bs := by
    rw [scanPrefixes_split hbad, hrest, encode, hhead, hpfx, List.append_assoc, List.prefix_append_right_inj]
    exact (List.prefix_append_right_inj [0x62#8, p0, p1, p2, op, modrm]).2 hspelled.src3.bytes
  refine ⟨i.wf_iff.2 ⟨hspelled.mask_wf, hspelled.src3.wf, hlen⟩, ?_⟩
  rw [← length_encode i]
  exact List.prefix_iff_eq_take.1 hprefix

end Sys2Proof

/-!
The decoder against the opcode table (30_encoding.md R65, R73): which row the fields of the six bytes choose, in the table
and in the decoder, and the neighbouring encodings that are in no row.
-/

namespace Sys2Proof

/-! ### The row that the fields choose -/

/-- What a row says of an instruction: digits, sign and length, `none` for embedded rounding (R55, R59). -/
def Form.row (f : Form) : Digits × Bool × Option VecLen :=
  (f.digits, f.neg, if f.er.isSome then none else some f.vl)

/-- The same of a row of the table. -/
def TableRow.row (r : TableRow) : Digits × Bool × Option VecLen := (r.digits, r.neg, r.len)

/-- 62H, the family's map, pp and W, and the fixed bits of P0 and P1 (R52, R53). -/
def headFits (b0 p0 p1 : Byte) : Bool := b0 == 0x62#8 && inFamily p0 p1 && !badEvex false p0 p1

/-- The length that EVEX.b, ModRM.mod and L'L choose (R59, R60): embedded rounding for b = 1 with registers. -/
def rowLen (p2 modrm : Byte) : Option (Option VecLen) :=
  if modrm.extractLsb' 6 2 = 3#2 ∧ p2.getLsbD 4 = true then some none else (vecLenOf (p2.extractLsb' 5 2)).map some

/-- The row of six bytes, from their fields. -/
def chosenRow (b0 p0 p1 p2 op modrm : Byte) : Option (Digits × Bool × Option VecLen) :=
  if headFits b0 p0 p1 then
    (opcodeOf op).bind fun p => (rowLen p2 modrm).map fun len => (p.1, p.2, len)
  else none

/-- EVEX.z without a writemask (R61, U4). -/
def ZeroesWithoutMask (p2 : Byte) : Prop := p2.getLsbD 7 = true ∧ p2.extractLsb' 0 3 = 0#3

/-! ### The row in the table -/

theorem append_eq_append_iff {v w : Nat} (a c : BitVec v) (b d : BitVec w) : a ++ b = c ++ d ↔ a = c ∧ b = d := by
  constructor
  · intro h
    have hhigh := congrArg (BitVec.extractLsb' w v) h
    have hlow := congrArg (BitVec.extractLsb' 0 w) h
    rw [BitVec.extractLsb'_append_eq_left, BitVec.extractLsb'_append_eq_left] at hhigh
    rw [BitVec.extractLsb'_append_eq_right, BitVec.extractLsb'_append_eq_right] at hlow
    exact ⟨hhigh, hlow⟩
  · rintro ⟨rfl, rfl⟩
    rfl

theorem and_append_eq_append_iff {v w : Nat} (a c e : BitVec v) (b d f : BitVec w) :
    (a ++ b) &&& (c ++ d) = e ++ f ↔ a &&& c = e ∧ b &&& d = f := by
  rw [BitVec.and_append, append_eq_append_iff]

/-- A pattern over six bytes holds of each byte. -/
theorem and_bytes_eq_iff (b0 b1 b2 b3 b4 b5 c0 c1 c2 c3 c4 c5 d0 d1 d2 d3 d4 d5 : Byte) :
    (b0 ++ b1 ++ b2 ++ b3 ++ b4 ++ b5) &&& (c0 ++ c1 ++ c2 ++ c3 ++ c4 ++ c5) = d0 ++ d1 ++ d2 ++ d3 ++ d4 ++ d5 ↔
      b0 &&& c0 = d0 ∧ b1 &&& c1 = d1 ∧ b2 &&& c2 = d2 ∧ b3 &&& c3 = d3 ∧ b4 &&& c4 = d4 ∧ b5 &&& c5 = d5 := by
  rw [and_append_eq_append_iff, and_append_eq_append_iff, and_append_eq_append_iff, and_append_eq_append_iff,
    and_append_eq_append_iff, and_assoc, and_assoc, and_assoc, and_assoc]

/-- The embedded-rounding row of a mnemonic, byte by byte. -/
def erRow (d : Digits) (neg : Bool) (o : Byte) : TableRow where
  digits := d
  neg := neg
  len := none
  bits := 0x62#8 ++ 0x06#8 ++ 0x05#8 ++ 0x10#8 ++ o ++ 0xC0#8
  care := 0xFF#8 ++ 0x0F#8 ++ 0x87#8 ++ 0x10#8 ++ 0xFF#8 ++ 0xC0#8

/-- A plain row of a mnemonic, byte by byte. -/
def plainRow (d : Digits) (neg : Bool) (o : Byte) (vl : VecLen) : TableRow where
  digits := d
  neg := neg
  len := some vl
  bits := 0x62#8 ++ 0x06#8 ++ 0x05#8 ++ (0#1 ++ vecLenBits vl ++ 0#5 : Byte) ++ o ++ 0#8
  care := 0xFF#8 ++ 0x0F#8 ++ 0x87#8 ++ 0x60#8 ++ 0xFF#8 ++ 0#8

theorem rowsOf_eq (d : Digits) (neg : Bool) (o : Byte) :
    rowsOf d neg o = [erRow d neg o, plainRow d neg o .v128, plainRow d neg o .v256, plainRow d neg o .v512] := rfl

theorem headFits_iff (b0 p0 p1 : Byte) :
    headFits b0 p0 p1 = true ↔ b0 = 0x62#8 ∧ p0 &&& 0x0F#8 = 0x06#8 ∧ p1 &&& 0x87#8 = 0x05#8 := by
  have hp0 : ∀ p0 : Byte, p0 &&& 0x0F#8 = 0x06#8 ↔ p0.extractLsb' 0 3 = 6#3 ∧ p0.getLsbD 3 = false := by decide
  have hp1 : ∀ p1 : Byte, p1 &&& 0x87#8 = 0x05#8 ↔
      p1.extractLsb' 0 2 = 1#2 ∧ p1.getLsbD 7 = false ∧ p1.getLsbD 2 = true := by decide
  rw [headFits, hp0, hp1, Bool.and_eq_true, Bool.and_eq_true, beq_iff_eq, Bool.not_eq_true', inFamily_eq_true_iff,
    badEvex_eq_false_iff]
  tauto

theorem covers_erRow (d : Digits) (neg : Bool) (o b0 p0 p1 p2 op modrm : Byte) :
    (erRow d neg o).covers (b0 ++ p0 ++ p1 ++ p2 ++ op ++ modrm) = true ↔
      (headFits b0 p0 p1 = true ∧ op = o) ∧ modrm.extractLsb' 6 2 = 3#2 ∧ p2.getLsbD 4 = true := by
  have hp2 : ∀ p2 : Byte, p2 &&& 0x10#8 = 0x10#8 ↔ p2.getLsbD 4 = true := by decide
  have hall : ∀ b : Byte, b &&& 0xFF#8 = b := by decide
  have hmodrm : ∀ modrm : Byte, modrm &&& 0xC0#8 = 0xC0#8 ↔ modrm.extractLsb' 6 2 = 3#2 := by decide
  have hbits : (b0 ++ p0 ++ p1 ++ p2 ++ op ++ modrm) &&& (erRow d neg o).care = (erRow d neg o).bits ↔ _ :=
    and_bytes_eq_iff ..
  rw [hall b0, hall op, hp2, hmodrm] at hbits
  have hlen : (erRow d neg o).len.isNone = true := rfl
  rw [TableRow.covers, hlen, Bool.true_or, Bool.and_true, beq_iff_eq, hbits, headFits_iff]
  tauto

theorem covers_plainRow (d : Digits) (neg : Bool) (o b0 p0 p1 op modrm : Byte) {p2 : Byte}
    (hz : ¬ ZeroesWithoutMask p2) (vl : VecLen) :
    (plainRow d neg o vl).covers (b0 ++ p0 ++ p1 ++ p2 ++ op ++ modrm) = true ↔
      (headFits b0 p0 p1 = true ∧ op = o) ∧ ¬ (modrm.extractLsb' 6 2 = 3#2 ∧ p2.getLsbD 4 = true) ∧
        p2.extractLsb' 5 2 = vecLenBits vl := by
  have hp2 : ∀ (p2 : Byte) (ll : BitVec 2), p2 &&& 0x60#8 = (0#1 ++ ll ++ 0#5 : Byte) ↔ p2.extractLsb' 5 2 = ll := by
    decide
  have hall : ∀ b : Byte, b &&& 0xFF#8 = b := by decide
  have hmodrm : ∀ modrm : Byte, modrm &&& 0#8 = 0#8 := by decide
  have hbits : (b0 ++ p0 ++ p1 ++ p2 ++ op ++ modrm) &&& (plainRow d neg o vl).care = (plainRow d neg o vl).bits ↔ _ :=
    and_bytes_eq_iff ..
  rw [hall b0, hall op, hp2, hmodrm] at hbits
  have hmod : (b0 ++ p0 ++ p1 ++ p2 ++ op ++ modrm).extractLsb' 6 2 = modrm.extractLsb' 6 2 :=
    BitVec.extractLsb'_append_eq_of_add_le (by decide)
  have haaa : (b0 ++ p0 ++ p1 ++ p2 ++ op ++ modrm).extractLsb' 16 3 = p2.extractLsb' 0 3 := by
    rw [BitVec.extractLsb'_append_eq_of_le (by decide), BitVec.extractLsb'_append_eq_of_le (by decide),
      BitVec.extractLsb'_append_eq_of_add_le (by decide)]
  have hb : (b0 ++ p0 ++ p1 ++ p2 ++ op ++ modrm).getLsbD 20 = p2.getLsbD 4 := by
    simp only [BitVec.getLsbD_append]
    rfl
  have hzero : (b0 ++ p0 ++ p1 ++ p2 ++ op ++ modrm).getLsbD 23 = p2.getLsbD 7 := by
    simp only [BitVec.getLsbD_append]
    rfl
  have hz : (p2.getLsbD 7 && p2.extractLsb' 0 3 == 0#3) = false := by
    simpa only [ZeroesWithoutMask, ← Bool.not_eq_true, Bool.and_eq_true, beq_iff_eq] using hz
  have hlen : (plainRow d neg o vl).len.isNone = false := rfl
  rw [TableRow.covers, hmod, haaa, hb, hzero, hz, hlen, Bool.false_or, Bool.not_false, Bool.and_true, Bool.and_eq_true,
    beq_iff_eq, hbits, headFits_iff, Bool.not_eq_true', ← Bool.not_eq_true, Bool.and_eq_true, beq_iff_eq]
  tauto

/-- One mnemonic's rows: embedded rounding is tried first, then the lengths in turn. -/
theorem find?_rowsOf (d : Digits) (neg : Bool) (o b0 p0 p1 op modrm : Byte) {p2 : Byte} (hz : ¬ ZeroesWithoutMask p2) :
    ((rowsOf d neg o).find? fun r => r.covers (b0 ++ p0 ++ p1 ++ p2 ++ op ++ modrm)).map TableRow.row =
      if headFits b0 p0 p1 = true ∧ op = o then (rowLen p2 modrm).map fun len => (d, neg, len) else none := by
  have her := covers_erRow d neg o b0 p0 p1 p2 op modrm
  have hplain := covers_plainRow d neg o b0 p0 p1 op modrm hz
  generalize b0 ++ p0 ++ p1 ++ p2 ++ op ++ modrm = h at her hplain ⊢
  by_cases hhead : headFits b0 p0 p1 = true ∧ op = o
  · rw [if_pos hhead, rowLen]
    by_cases hrounds : modrm.extractLsb' 6 2 = 3#2 ∧ p2.getLsbD 4 = true
    · rw [if_pos hrounds]
      simp only [rowsOf_eq, List.find?_cons, her.2 ⟨hhead, hrounds⟩]
      rfl
    · have her : (erRow d neg o).covers h = false := Bool.eq_false_iff.2 fun hcovers => hrounds (her.1 hcovers).2
      have hplain : ∀ vl, (plainRow d neg o vl).covers h = (p2.extractLsb' 5 2 == vecLenBits vl) := fun vl => by
        rw [Bool.eq_iff_iff, hplain, beq_iff_eq]
        exact ⟨fun hfields => hfields.2.2, fun hll => ⟨hhead, hrounds, hll⟩⟩
      have hcodes : ∀ ll : BitVec 2, ll = 0#2 ∨ ll = 1#2 ∨ ll = 2#2 ∨ ll = 3#2 := by decide
      rw [if_neg hrounds]
      simp only [rowsOf_eq, List.find?_cons, List.find?_nil, her, hplain]
      rcases hcodes (p2.extractLsb' 5 2) with hll | hll | hll | hll <;> rw [hll] <;> rfl
  · simp only [hhead, false_and, iff_false] at her hplain
    simp [rowsOf_eq, her, hplain, hhead]

/-- The table's row of the six bytes is the one their fields choose: the opcode bytes differ, so the rows of one mnemonic at
most can cover them. -/
theorem tableRowOf_eq (b0 p0 p1 op modrm : Byte) {p2 : Byte} (hz : ¬ ZeroesWithoutMask p2) :
    (tableRowOf (b0 ++ p0 ++ p1 ++ p2 ++ op ++ modrm)).map TableRow.row = chosenRow b0 p0 p1 p2 op modrm := by
  simp only [tableRowOf, tableRows, List.find?_append, Option.map_or, find?_rowsOf _ _ _ _ _ _ _ _ hz, chosenRow,
    opcodeOf]
  cases headFits b0 p0 p1 with
  | false => rfl
  | true =>
    cases rowLen p2 modrm with
    | none => simp
    | some len =>
      simp only [true_and, if_true, Option.map_some]
      split_ifs <;> simp_all

/-! ### The row that the decoder answers -/

theorem extraLength_le (modrm : Byte) (bs : List Byte) : extraLength modrm bs ≤ 5 := by
  have hdisp : dispLength (modrm.extractLsb' 6 2) ≤ 4 := by
    rw [dispLength]
    split_ifs <;> omega
  simp only [extraLength]
  split_ifs
  · omega
  · split
    · split_ifs <;> omega
    · omega
  · omega
  · omega

theorem Src3.extraLen_le (src : Src3) : src.extraLen ≤ 5 := by
  have hdisp : ∀ d : Disp, d.len ≤ 4 := fun d => by cases d <;> simp [Disp.len]
  cases src with
  | reg r => exact Nat.zero_le 5
  | mem bcst m =>
    cases m with
    | baseDisp x base d => exact Nat.le_succ_of_le (hdisp d)
    | ripRel x b d => exact Nat.le_succ 4
    | sib base index scale d => exact (Nat.add_comm 1 d.len).trans_le (Nat.succ_le_succ (hdisp d))
    | sibNoBase b index scale d => exact Nat.le_refl 5

/-- With a legal mask and enough bytes, the decoder answers #UD where the fields choose no length, and otherwise an
instruction of that length. -/
theorem decodeFamily_of_rowLen (pfx : List LegacyPrefix) (d : Digits) (neg : Bool) (p0 p1 : Byte) {p2 : Byte}
    (modrm : Byte) {bs : List Byte} (hz : ¬ ZeroesWithoutMask p2) (hbs : 5 ≤ bs.length) :
    (rowLen p2 modrm = none → decodeFamily pfx d neg p0 p1 p2 modrm bs = .ud) ∧
    ∀ len, rowLen p2 modrm = some len →
      ∃ i, decodeFamily pfx d neg p0 p1 p2 modrm bs = .form i ∧ i.form.row = (d, neg, len) := by
  obtain ⟨mask, hmask⟩ := Option.ne_none_iff_exists'.1 (mt (maskingOf_eq_none_iff _ _).1 hz)
  rw [decodeFamily, hmask, rowLen]
  simp only
  by_cases hmod : modrm.extractLsb' 6 2 = 3#2
  · simp only [hmod, if_true, true_and, decodeReg]
    by_cases hb : p2.getLsbD 4 = true
    · simp only [if_pos hb]
      refine ⟨nofun, fun len h => ?_⟩
      cases h
      exact ⟨_, rfl, by rw [form_mkEr]; rfl⟩
    · simp only [if_neg hb, decodePlain]
      cases vecLenOf (p2.extractLsb' 5 2) with
      | none => exact ⟨fun _ => rfl, nofun⟩
      | some vl =>
        refine ⟨nofun, fun len h => ?_⟩
        cases h
        exact ⟨_, rfl, by rw [form_mkPlain]; rfl⟩
  · simp only [hmod, if_false, false_and, decodeMem]
    cases vecLenOf (p2.extractLsb' 5 2) with
    | none => exact ⟨fun _ => rfl, nofun⟩
    | some vl =>
      have hread := mt (readMem_eq_none_iff (evexX p0) (evexB p0) hmod bs).1
        (Nat.not_lt_of_le ((extraLength_le modrm bs).trans hbs))
      obtain ⟨m, hm⟩ := Option.ne_none_iff_exists'.1 hread
      rw [hm]
      refine ⟨nofun, fun len h => ?_⟩
      cases h
      exact ⟨_, rfl, by rw [form_mkPlain]; rfl⟩

/-- Bytes without prefixes: an instruction where they are of the family, and then no more than 11 bytes. -/
theorem decode_of_unprefixed_eq_form_iff {b0 : Byte} (hlegacy : prefixOf b0 = none) (hbad : badPrefix b0 = false)
    (p0 p1 p2 op modrm : Byte) (rest : List Byte) (i : Instr) :
    decode (b0 :: p0 :: p1 :: p2 :: op :: modrm :: rest) = .form i ↔
      headFits b0 p0 p1 = true ∧ ∃ p, opcodeOf op = some p ∧ decodeFamily [] p.1 p.2 p0 p1 p2 modrm rest = .form i := by
  have hscan : scanPrefixes (b0 :: p0 :: p1 :: p2 :: op :: modrm :: rest) =
      { pfx := [], bad := false, rest := b0 :: p0 :: p1 :: p2 :: op :: modrm :: rest } := by
    simp [scanPrefixes, hlegacy, hbad]
  rw [decode, limitLength_eq_form_iff, hscan, decodeEvex_eq_form_iff]
  simp only [headFits, Bool.and_eq_true, beq_iff_eq, Bool.not_eq_true', List.cons.injEq]
  constructor
  · rintro ⟨⟨p0, p1, p2, op, modrm, rest, d, neg, ⟨rfl, rfl, rfl, rfl, rfl, rfl, rfl⟩, hop, hfamily, hgood, h⟩, -⟩
    exact ⟨⟨⟨rfl, hfamily⟩, hgood⟩, (d, neg), hop, h⟩
  · rintro ⟨⟨⟨rfl, hfamily⟩, hgood⟩, ⟨d, neg⟩, hop, h⟩
    refine ⟨⟨p0, p1, p2, op, modrm, rest, d, neg, ⟨rfl, rfl, rfl, rfl, rfl, rfl, rfl⟩, hop, hfamily, hgood, h⟩, ?_⟩
    obtain ⟨-, -, hpfx, -⟩ := decodeFamily_spelledBy h
    have hextra := i.form.src3.extraLen_le
    have hlen : i.ilen = 6 + i.form.src3.extraLen := by rw [Instr.ilen, Form.ilen, hpfx, List.length_nil, Nat.zero_add]
    rw [hlen]
    exact (Nat.add_le_add_left hextra 6).trans (by decide)

/-- An instruction is decoded exactly where the fields choose a row, and it is of that row. -/
theorem exists_decode_row_iff {b0 : Byte} (hlegacy : prefixOf b0 = none) (hbad : badPrefix b0 = false)
    (p0 p1 op modrm : Byte) {p2 : Byte} {rest : List Byte} (hz : ¬ ZeroesWithoutMask p2) (hrest : 5 ≤ rest.length)
    (row : Digits × Bool × Option VecLen) :
    (∃ i, decode (b0 :: p0 :: p1 :: p2 :: op :: modrm :: rest) = .form i ∧ i.form.row = row) ↔
      chosenRow b0 p0 p1 p2 op modrm = some row := by
  simp only [decode_of_unprefixed_eq_form_iff hlegacy hbad, chosenRow]
  cases headFits b0 p0 p1 with
  | false => simp
  | true =>
    cases opcodeOf op with
    | none => simp
    | some p =>
      obtain ⟨d, neg⟩ := p
      obtain ⟨hud, hform⟩ := decodeFamily_of_rowLen [] d neg p0 p1 modrm hz hrest
      cases hlen : rowLen p2 modrm with
      | none => simp [hud hlen]
      | some len =>
        obtain ⟨i, hi, hrow⟩ := hform len hlen
        simp [hi, hrow]

theorem not_zeroesWithoutMask_of_decode {b0 : Byte} (hlegacy : prefixOf b0 = none) (hbad : badPrefix b0 = false)
    {p0 p1 p2 op modrm : Byte} {rest : List Byte} {i : Instr}
    (h : decode (b0 :: p0 :: p1 :: p2 :: op :: modrm :: rest) = .form i) : ¬ ZeroesWithoutMask p2 := by
  obtain ⟨-, p, -, h⟩ := (decode_of_unprefixed_eq_form_iff hlegacy hbad ..).1 h
  obtain ⟨-, -, -, hspelled⟩ := decodeFamily_spelledBy h
  intro hz
  have hmask := hspelled.mask
  rw [(maskingOf_eq_none_iff _ _).2 hz] at hmask
  cases hmask

/-- Settles O3: the table and the decoder both give the row that the fields of the six bytes choose. -/
theorem tableAgreesWithDecoder : Obligations.TableAgreesWithDecoder := by
  intro b0 p0 p1 p2 op modrm rest hrest hlegacy hbad
  have hdecode := fun hz => exists_decode_row_iff hlegacy hbad p0 p1 op modrm (p2 := p2) hz hrest
  have htable := tableRowOf_eq b0 p0 p1 op modrm (p2 := p2)
  have hrow : ∀ i, decode (b0 :: p0 :: p1 :: p2 :: op :: modrm :: rest) = .form i →
      ∃ r, tableRowOf (b0 ++ p0 ++ p1 ++ p2 ++ op ++ modrm) = some r ∧ r.row = i.form.row := fun i hi => by
    have hz := not_zeroesWithoutMask_of_decode hlegacy hbad hi
    rw [← Option.map_eq_some_iff, htable hz, ← hdecode hz]
    exact ⟨i, hi, rfl⟩
  refine ⟨⟨fun ⟨i, hi⟩ => ?_, fun ⟨hsome, hz⟩ => ?_⟩, fun i hi => ?_⟩
  · obtain ⟨r, hr, -⟩ := hrow i hi
    exact ⟨by rw [hr]; rfl, not_zeroesWithoutMask_of_decode hlegacy hbad hi⟩
  · obtain ⟨r, hr⟩ := Option.isSome_iff_exists.1 hsome
    obtain ⟨i, hi, -⟩ := (hdecode hz r.row).2 (by rw [← htable hz, hr]; rfl)
    exact ⟨i, hi⟩
  · obtain ⟨r, hr, heq⟩ := hrow i hi
    simp only [TableRow.row, Form.row, Prod.mk.injEq] at heq
    exact ⟨r, hr, heq⟩

/-! ### The neighbouring encodings (R65) -/

theorem opcodeOf_eq_none_iff : ∀ op : Byte,
    opcodeOf op = none ↔ op ∉ [0x98#8, 0xA8#8, 0xB8#8, 0x9C#8, 0xAC#8, 0xBC#8] := by decide

theorem decodeAfterEscape_of_notFamily (sc : PrefixScan) {p0 p1 op : Byte} (p2 modrm : Byte) (rest : List Byte)
    (h : inFamily p0 p1 = false ∨ opcodeOf op = none) :
    decodeAfterEscape sc (p0 :: p1 :: p2 :: op :: modrm :: rest) = .notThisFamily := by
  rw [decodeAfterEscape]
  cases hop : opcodeOf op with
  | none => rfl
  | some p =>
    have hfamily : inFamily p0 p1 = false := h.resolve_right (by simp [hop])
    simp [hfamily]

end Sys2Proof

namespace Sys2Proof.Machine

open Sys2Proof

/-- Settles O5: one of the family's four tests fails, and they come before every other; the step refuses such bytes. -/
theorem neighbourEncodingsRefused : Obligations.NeighbourEncodingsRefused := by
  intro pre p0 p1 p2 op modrm rest hpre hneighbour
  have hnot : inFamily p0 p1 = false ∨ opcodeOf op = none := by
    rw [opcodeOf_eq_none_iff, ← Bool.not_eq_true, inFamily_eq_true_iff, ← Bool.not_eq_true]
    tauto
  have hdecode : decode (pre ++ 0x62#8 :: p0 :: p1 :: p2 :: op :: modrm :: rest) = .notThisFamily := by
    have hrest := scanPrefixes_append pre 0x62#8 (p0 :: p1 :: p2 :: op :: modrm :: rest) hpre.isPrefixByte (by decide)
    rw [decode, decodeEvex, hrest]
    simp [decodeAfterEscape_of_notFamily _ p2 modrm rest hnot, limitLength]
  refine ⟨hdecode, fun s hraised hlaunch hend hfetched => ?_⟩
  rw [step_eq_execDecoded hraised hlaunch hend, hfetched, hdecode]
  rfl

end Sys2Proof.Machine

/-!
A word placed for the next fetch (30_encoding.md R66; 70_reset_and_hazards.md R167): what placing writes, and that the fetch
reads the placed bytes back.
-/

namespace Sys2Proof.Machine

open Sys2Proof

/-! ### What placing bytes writes -/

/-- Placing bytes writes memory alone. -/
theorem State.placeBytes_eq_setMem (s : State) (bs : List Byte) (la : Addr) :
    s.placeBytes bs la = s.setMem (s.placeBytes bs la).mem := by
  induction bs generalizing s la with
  | nil => rfl
  | cons b bs ih =>
    rw [State.placeBytes]
    split
    · rw [ih]
      rfl
    · exact ih _ _

theorem State.translate_of_identity {s : State} (h : s.translation = []) (kind : AccessKind) (la : Addr) :
    s.translate kind la = .phys la := by
  rw [State.translate, h]
  rfl

theorem State.readByte_of_identity {s : State} (htranslation : s.translation = []) (hdevices : s.devices = [])
    {la : Addr} {v : Byte} (hmem : s.mem.read la = some v) (kind : AccessKind) : s.readByte kind la = .byte v := by
  simp [State.readByte, State.translate_of_identity htranslation, State.isDevice, hdevices, hmem]

theorem State.placeBytes_cons {s : State} (h : s.translation = []) (b : Byte) (bs : List Byte) (la : Addr) :
    s.placeBytes (b :: bs) la = (s.setMem (s.mem.write la.toNat b)).placeBytes bs (la + 1) := by
  rw [State.placeBytes, State.translate_of_identity h]

/-- With the identity translation, a byte below the placed ones is as before. -/
theorem State.read_placeBytes_below {s : State} (h : s.translation = []) (bs : List Byte) {la pa : Addr}
    (hwrap : la.toNat + bs.length < 2 ^ 64) (hpa : pa.toNat < la.toNat) :
    (s.placeBytes bs la).mem.read pa = s.mem.read pa := by
  induction bs generalizing s la with
  | nil => rfl
  | cons b bs ih =>
    rw [List.length_cons] at hwrap
    have hnext : (la + 1).toNat = la.toNat + 1 := by bv_omega
    have hwritten : (s.setMem (s.mem.write la.toNat b)).translation = [] := h
    rw [State.placeBytes_cons h, ih hwritten (by omega) (by omega)]
    exact Memory.read_write_other _ (by omega) _

/-- The placed bytes are read back, each at its own address. -/
theorem State.read_placeBytes {s : State} (h : s.translation = []) {bs : List Byte} {la : Addr}
    (hwrap : la.toNat + bs.length < 2 ^ 64) {k : Nat} (hk : k < bs.length) :
    (s.placeBytes bs la).mem.read (la + BitVec.ofNat 64 k) = some bs[k] := by
  induction bs generalizing s la k with
  | nil => simp at hk
  | cons b bs ih =>
    rw [List.length_cons] at hwrap hk
    have hnext : (la + 1).toNat = la.toNat + 1 := by bv_omega
    have hwritten : (s.setMem (s.mem.write la.toNat b)).translation = [] := h
    rw [State.placeBytes_cons h]
    cases k with
    | zero =>
      rw [BitVec.add_zero, State.read_placeBytes_below hwritten bs (by omega) (by omega)]
      exact Memory.read_write_self ..
    | succ k =>
      have haddr : la + BitVec.ofNat 64 (k + 1) = la + 1 + BitVec.ofNat 64 k := by
        rw [BitVec.ofNat_add]
        bv_omega
      rw [haddr]
      exact ih hwritten (by omega) (by omega)

/-! ### The state with a word placed -/

theorem State.withFetchWord_eq (s : State) (nbits w : Nat) :
    s.withFetchWord nbits w = (s.setMem (s.placeBytes (wordBytes nbits w) s.fetchAddress).mem).setText
      { start := s.fetchAddress, size := maxInstrLen } := by
  rw [State.withFetchWord, State.placeWord, ← State.placeBytes_eq_setMem]

@[simp] theorem State.fetchAddress_withFetchWord (s : State) (nbits w : Nat) :
    (s.withFetchWord nbits w).fetchAddress = s.fetchAddress := by
  rw [State.withFetchWord_eq]
  rfl

@[simp] theorem State.canonical_withFetchWord (s : State) (nbits w : Nat) (la : Addr) :
    (s.withFetchWord nbits w).canonical la = s.canonical la := by
  rw [State.withFetchWord_eq]
  rfl

@[simp] theorem State.raised_withFetchWord (s : State) (nbits w : Nat) : (s.withFetchWord nbits w).raised = s.raised := by
  rw [State.withFetchWord_eq]
  rfl

@[simp] theorem State.launchRefusal_withFetchWord (s : State) (nbits w : Nat) :
    (s.withFetchWord nbits w).launchRefusal = s.launchRefusal := by
  rw [State.withFetchWord_eq]
  rfl

@[simp] theorem State.text_withFetchWord (s : State) (nbits w : Nat) :
    (s.withFetchWord nbits w).text = { start := s.fetchAddress, size := maxInstrLen } := rfl

@[simp] theorem length_wordBytes (nbits w : Nat) : (wordBytes nbits w).length = maxInstrLen := by
  rw [wordBytes, List.length_map, List.length_range]

/-! ### The fetch of the placed bytes -/

theorem State.inText_withFetchWord (s : State) (nbits w : Nat) {k : Nat} (hk : k ≤ maxInstrLen) :
    (s.withFetchWord nbits w).inText (s.fetchAddress + BitVec.ofNat 64 k) = decide (k < maxInstrLen) := by
  have hoffset : (s.fetchAddress + BitVec.ofNat 64 k - s.fetchAddress).toNat = k := by
    have hk : k < 2 ^ 64 := Nat.lt_of_le_of_lt hk (by decide)
    bv_omega
  rw [State.inText, State.text_withFetchWord, hoffset]

theorem State.atEndOfText_withFetchWord (s : State) (nbits w : Nat) :
    (s.withFetchWord nbits w).atEndOfText s.fetchAddress = false := by
  have hend : BitVec.ofNat 64 maxInstrLen ≠ 0#64 := by decide
  simpa [State.atEndOfText] using hend

theorem State.fetchByte_withFetchWord {s : State} (htranslation : s.translation = []) (hdevices : s.devices = [])
    (hcanonical : ∀ k, k ≤ maxInstrLen → s.canonical (s.fetchAddress + BitVec.ofNat 64 k) = true)
    (hwrap : s.fetchAddress.toNat + maxInstrLen < 2 ^ 64) (nbits w : Nat) {k : Nat}
    (hk : k < (wordBytes nbits w).length) :
    (s.withFetchWord nbits w).fetchByte (s.fetchAddress + BitVec.ofNat 64 k) = .ok (wordBytes nbits w)[k] := by
  have hlen := length_wordBytes nbits w
  have hread : (s.withFetchWord nbits w).readByte .fetch (s.fetchAddress + BitVec.ofNat 64 k) =
      .byte (wordBytes nbits w)[k] := by
    have hmem := State.read_placeBytes htranslation (bs := wordBytes nbits w) (by rwa [hlen]) hk
    rw [State.withFetchWord_eq]
    refine State.readByte_of_identity ?_ ?_ ?_ .fetch
    · exact htranslation
    · exact hdevices
    · exact hmem
  rw [hlen] at hk
  rw [State.fetchByte, s.inText_withFetchWord nbits w hk.le, s.canonical_withFetchWord, hcanonical k hk.le, hread]
  simp [hk]

theorem State.fetchByte_withFetchWord_end (s : State) (nbits w : Nat) :
    (s.withFetchWord nbits w).fetchByte (s.fetchAddress + BitVec.ofNat 64 maxInstrLen) = .error .beyondText := by
  rw [State.fetchByte, s.inText_withFetchWord nbits w le_rfl]
  rfl

/-- Bytes that can be fetched each at its own address, and none after them. -/
theorem State.fetchableFrom_of_bytes {s : State} {bs : List Byte} {la : Addr} {stop : FetchStop}
    (hbytes : ∀ k (hk : k < bs.length), s.fetchByte (la + BitVec.ofNat 64 k) = .ok bs[k])
    (hend : s.fetchByte (la + BitVec.ofNat 64 bs.length) = .error stop) : s.FetchableFrom la bs := by
  induction bs generalizing la with
  | nil => exact ⟨stop, by simpa using hend⟩
  | cons b bs ih =>
    have haddr : ∀ k, la + 1 + BitVec.ofNat 64 k = la + BitVec.ofNat 64 (k + 1) := fun k => by
      rw [BitVec.ofNat_add]
      bv_omega
    refine ⟨by simpa using hbytes 0 (Nat.zero_lt_succ _), ih (fun k hk => ?_) ?_⟩
    · rw [haddr]
      exact hbytes (k + 1) (Nat.succ_lt_succ hk)
    · rw [haddr]
      exact hend

theorem decode_of_decodeTableWord {nbits w : Nat} {i : Instr} (h : decodeTableWord nbits w = some i) :
    decode (wordBytes nbits w) = .form i := by
  rw [decodeTableWord] at h
  split at h
  · next j hj => rw [hj, Option.some.inj h]
  · cases h

/-- Settles O57: the fetch reads the decoder's window of the placed bytes, and the next RIP lies within them. -/
theorem placedWordIsExecuted : Obligations.PlacedWordIsExecuted := by
  intro s nbits w i hraised hlaunch htranslation hdevices hcanonical hwrap hword
  have hlen := length_wordBytes nbits w
  have hfetchable : (s.withFetchWord nbits w).FetchableFrom s.fetchAddress (wordBytes nbits w) :=
    State.fetchableFrom_of_bytes
      (fun k hk => State.fetchByte_withFetchWord htranslation hdevices hcanonical hwrap nbits w hk)
      (hlen ▸ s.fetchByte_withFetchWord_end nbits w)
  have hfetched : (s.withFetchWord nbits w).fetched.1 = window (wordBytes nbits w) := by
    rw [State.fetched, State.fetchAddress_withFetchWord]
    exact fetchFrom_fst _ _ _ _ hfetchable (hlen ▸ Nat.lt_succ_self maxInstrLen)
  have hdecode : decode (s.withFetchWord nbits w).fetched.1 = .form i := by
    rw [hfetched, decode_window, decode_of_decodeTableWord hword]
  obtain ⟨hwf, -⟩ := acceptedBytesAreTheEncoding _ _ hdecode
  obtain ⟨-, -, hilen⟩ := i.wf_iff.1 hwf
  have hfits : (s.withFetchWord nbits w).nextRipFits i.ilen = true := by
    simp only [State.nextRipFits, State.fetchAddress_withFetchWord, State.canonical_withFetchWord, hcanonical _ hilen,
      Bool.and_true, decide_eq_true_eq]
    omega
  have hrun := stepRunsDecodedInstruction (s.withFetchWord nbits w) i (by simpa using hraised) (by simpa using hlaunch)
    (by simpa using s.atEndOfText_withFetchWord nbits w) hdecode
  exact hrun.1 hfits

end Sys2Proof.Machine

/-!
What every packed instruction writes and does not write (40_packed_common.md R85 to R93): a next state is a raise or a
completion, said once with the instruction's own form; the source elements that no active lane reads; and MXCSR's flags and
masks, which decide between raising and completing and let a raised instruction restart (60_exceptions.md R137, R140).
-/

namespace Sys2Proof.Machine

open Sys2Proof

/-! ### Raise or completion (R88, R90) -/

theorem FpFlags.unmasked_eq_pre_or_post (a : FpFlags) (masks : BitVec 6) :
    a.unmasked masks = (a.pre.unmasked masks || a.post.unmasked masks) := by
  rw [Bool.eq_iff_iff, Bool.or_eq_true]
  simp only [FpFlags.unmasked_iff, a.bits_pre_post, BitVec.getLsbD_or, Bool.or_eq_true, or_and_right, exists_or]

/-- R88: without embedded rounding an unmasked flag raises, and the flags that are then reported hold an unmasked one. -/
theorem LanesNext.raises_or_completes {f : Form} {t3 : Nat → Fp16} {s t : State} (h : LanesNext f t3 s t) :
    (f.er = none ∧ ∃ a, a.unmasked s.mxcsrMasks = true ∧ t = (s.orFlags a).takeException s.simdException) ∨
      ((f.er = none → (s.detected f t3).unmasked s.mxcsrMasks = false) ∧ ∃ a, t = s.complete f t3 a) := by
  cases h with
  | suppressed er h => exact .inr ⟨fun hnone => by simp [hnone] at er, _, h⟩
  | raisedPre er u h => exact .inl ⟨er, _, u, h⟩
  | raisedPost er n u h => exact .inl ⟨er, _, by rw [FpFlags.unmasked_eq_pre_or_post, u, Bool.or_true], h⟩
  | completed er n m h => exact .inr ⟨fun _ => by rw [FpFlags.unmasked_eq_pre_or_post, n, m, Bool.or_false], _, h⟩

/-- R90, R140: an instruction that reaches a next state raises an exception, or completes with its own form. -/
theorem exec_raises_or_completes {i : Instr} {s t : State} (h : exec i s = .next t) :
    (∃ e a, t = (s.orFlags a).takeException e) ∨ ∃ t3 a, t = s.complete i.form t3 a := by
  have raises : ∀ e, t = s.takeException e → ∃ e a, t = (s.orFlags a).takeException e := fun e ht =>
    ⟨e, .empty, by rw [State.orFlags_empty, ht]⟩
  rw [exec_eq] at h
  cases execPacked_cases h with
  | ud c h => exact .inl (raises _ h)
  | nm c h => exact .inl (raises _ h)
  | address bcst m src c h => exact .inl (raises _ h)
  | pageFault bcst m src la code c h => exact .inl (raises _ h)
  | lanes enabled readable h =>
    rcases h.raises_or_completes with ⟨_, a, _, ht⟩ | ⟨_, a, ht⟩
    · exact .inl ⟨_, a, ht⟩
    · exact .inr ⟨_, a, ht⟩

/-- R86. -/
theorem State.regBit_newDest_of_le (s : State) {f : Form} (t3 : Nat → Fp16) {b : Nat} (hb : f.vl.bits ≤ b) :
    regBit (s.newDest f t3) b = false := by
  have hlane : ¬ b / 16 < f.vl.lanes := by
    rw [bits_eq_lanes] at hb
    omega
  simp [s.regBit_newDest, hlane]

/-- Settles O29: a completion writes the new destination, a raise no vector register. -/
theorem upperBitsZeroedOnCompletion : Obligations.UpperBitsZeroedOnCompletion := by
  intro i s t hs h
  rcases exec_raises_or_completes h with ⟨e, a, rfl⟩ | ⟨t3, a, rfl⟩
  · exact ⟨fun hnone => by simp at hnone, fun _ => by simp⟩
  · refine ⟨fun _ b hb => ?_, fun hraised => absurd hs hraised⟩
    rw [State.complete_zmmReg_self]
    exact s.regBit_newDest_of_le t3 hb

/-- Settles O31: a completion writes the destination alone among the vector registers, a raise none. -/
theorem sourceRegistersUnchanged : Obligations.SourceRegistersUnchanged := by
  intro i s t h
  rcases exec_raises_or_completes h with ⟨e, a, rfl⟩ | ⟨t3, a, rfl⟩
  · exact ⟨fun r _ => by simp [State.zmmReg], by simp, by simp⟩
  · exact ⟨fun r hr => s.complete_zmmReg_other t3 a hr, rfl, rfl⟩

/-- Settles O32: only a completion moves RIP, and it leaves `raised` as it was. -/
theorem ripAdvancesOrStays : Obligations.RipAdvancesOrStays := by
  intro i s t hs h
  rcases exec_raises_or_completes h with ⟨e, a, rfl⟩ | ⟨t3, a, rfl⟩
  · simp
  · rw [State.complete_raised, if_pos hs, State.complete_rip, Instr.ilen]

/-! ### Source elements in inactive lanes (R85) -/

/-- `v` may stand in vector register `r` for what it holds in `s`, as far as the form reads it: `r` is not the destination,
and the active elements are the same. -/
structure SourceAgrees (f : Form) (s : State) (r : VReg) (v : VecReg) : Prop where
  notDest : r ≠ f.dest
  active : ∀ j, Active f s j → lane v.low j = lane (s.zmmAt r) j

theorem State.setZmm_comm (s : State) {r r' : VReg} (h : r ≠ r') (v v' : VecReg) :
    (s.setZmm r v).setZmm r' v' = (s.setZmm r' v').setZmm r v := by
  have hne : r.toNat ≠ r'.toNat := fun e => h (BitVec.eq_of_toNat_eq e)
  simp only [State.setZmm, Vector.set_comm _ _ hne]

theorem raiseException_setZmm (e : Exception) (s : State) (r : VReg) (v : VecReg) :
    raiseException e (s.setZmm r v) = mapNext (·.setZmm r v) (raiseException e s) := by
  cases e <;> rfl

theorem State.lowestFault_setZmm (s : State) (r : VReg) (v : VecReg) (l : List Addr) :
    (s.setZmm r v).lowestFault l = s.lowestFault l := by
  induction l with
  | nil => rfl
  | cons la l ih => rw [State.lowestFault, State.lowestFault, ih, State.translate_setZmm]

theorem State.loadStatus_setZmm (s : State) (r : VReg) (v : VecReg) (l : List Addr) :
    (s.setZmm r v).loadStatus l = s.loadStatus l := by
  have hread : (s.setZmm r v).readByte .read = s.readByte .read := rfl
  rw [State.loadStatus, State.loadStatus, s.lowestFault_setZmm, hread]

section
variable {f : Form} {s : State} {r : VReg} {v : VecReg}

/-- An active element of any register, operand or not. -/
theorem SourceAgrees.lane_zmmAt (h : SourceAgrees f s r v) (r' : VReg) {j : Nat} (hj : Active f s j) :
    lane ((s.setZmm r v).zmmAt r') j = lane (s.zmmAt r') j := by
  by_cases hr : r' = r
  · rw [hr, State.zmmAt_setZmm_self, h.active j hj]
  · rw [State.zmmAt_setZmm_other s v hr]

theorem SourceAgrees.laneResult (h : SourceAgrees f s r v) (t3 : Nat → Fp16) {j : Nat} (hj : Active f s j) :
    (s.setZmm r v).laneResult f t3 j = s.laneResult f t3 j := by
  rw [State.laneResult, State.laneResult, h.lane_zmmAt f.dest hj, h.lane_zmmAt f.src2 hj]
  rfl

theorem SourceAgrees.detected (h : SourceAgrees f s r v) (t3 : Nat → Fp16) :
    (s.setZmm r v).detected f t3 = s.detected f t3 :=
  List.foldr_ext _ _ _ fun j hj _ => by rw [h.laneResult t3 ((s.mem_activeLanes f j).1 hj)]

/-- An inactive element of the destination is kept or zeroed, and `r` is not the destination. -/
theorem SourceAgrees.newDest (h : SourceAgrees f s r v) (t3 : Nat → Fp16) :
    (s.setZmm r v).newDest f t3 = s.newDest f t3 := by
  have hlanes : packLanes ((s.setZmm r v).newLane f t3) f.vl.lanes = packLanes (s.newLane f t3) f.vl.lanes :=
    packLanes_congr fun j hj => by
      rw [State.newLane, State.newLane, State.laneActive_setZmm, State.zmmAt_setZmm_other s v h.notDest.symm]
      split
      · next hon => rw [h.laneResult t3 ⟨hj, (s.laneActive_iff f.mask j).1 hon⟩]
      · rfl
  rw [State.newDest, State.newDest, hlanes]

theorem SourceAgrees.complete (h : SourceAgrees f s r v) (t3 : Nat → Fp16) (a : FpFlags) :
    (s.setZmm r v).complete f t3 a = (s.complete f t3 a).setZmm r v := by
  rw [State.complete, h.newDest]
  exact congrArg (·.setRip (s.rip + BitVec.ofNat 64 f.ilen)) ((s.orFlags a).setZmm_comm h.notDest _ _)

theorem SourceAgrees.execLanes (h : SourceAgrees f s r v) (t3 : Nat → Fp16) :
    execLanes f t3 (s.setZmm r v) = mapNext (·.setZmm r v) (execLanes f t3 s) := by
  have hmasks : (s.setZmm r v).mxcsrMasks = s.mxcsrMasks := rfl
  have hor : ∀ a, (s.setZmm r v).orFlags a = (s.orFlags a).setZmm r v := fun _ => rfl
  simp only [Machine.execLanes, h.detected, h.complete, hmasks, hor, State.simdException_setZmm, raiseException_setZmm,
    apply_ite (mapNext _)]
  rfl

theorem SourceAgrees.execMemory (h : SourceAgrees f s r v) (bcst : Bool) (m : MemOperand) :
    execMemory f bcst m (s.setZmm r v) = mapNext (·.setZmm r v) (execMemory f bcst m s) := by
  have haddr : (s.setZmm r v).linearAddress f bcst m = s.linearAddress f bcst m := rfl
  have hcanonical : ∀ la, (s.setZmm r v).operandCanonical f bcst la = s.operandCanonical f bcst la := fun _ => rfl
  have hneeded : ∀ la, (s.setZmm r v).neededBytes f bcst la = s.neededBytes f bcst la := fun _ => rfl
  have helement : (s.setZmm r v).element = s.element := rfl
  simp only [Machine.execMemory, haddr, hcanonical, hneeded, helement, s.loadStatus_setZmm, raiseException_setZmm,
    apply_ite (mapNext _)]
  congr 1
  cases s.loadStatus (s.neededBytes f bcst (s.linearAddress f bcst m)) with
  | ok => exact h.execLanes _
  | _ => rfl

/-- Operand 3 may be `r` itself: its elements agree where a lane is active. -/
theorem SourceAgrees.execRegister (h : SourceAgrees f s r v) (r3 : VReg) :
    Machine.execLanes f (fun j => lane ((s.setZmm r v).zmmAt r3) j) (s.setZmm r v) =
      mapNext (·.setZmm r v) (Machine.execLanes f (fun j => lane (s.zmmAt r3) j) s) := by
  rw [h.execLanes, execLanes_congr fun j hj => h.lane_zmmAt r3 hj]

theorem SourceAgrees.execPacked (h : SourceAgrees f s r v) :
    execPacked f (s.setZmm r v) = mapNext (·.setZmm r v) (execPacked f s) := by
  have hfeature : (s.setZmm r v).featureMissing f = s.featureMissing f := rfl
  simp only [Machine.execPacked, hfeature, State.realOrVm86_setZmm, State.in64BitMode_setZmm, State.osEnabled_setZmm,
    State.taskSwitched_setZmm, State.hasRegisters_setZmm, raiseException_setZmm, apply_ite (mapNext _)]
  cases f.src3 with
  | reg r3 => simp only [h.execRegister]; rfl
  | mem bcst m => simp only [h.execMemory]; rfl

end

/-- Settles O37: `execPacked` commutes with replacing source elements that no active lane reads. -/
theorem inactiveSourceLanesIgnored : Obligations.InactiveSourceLanesIgnored := by
  intro i s r v hr hactive
  rw [exec_eq, exec_eq]
  exact SourceAgrees.execPacked ⟨hr, hactive⟩

/-! ### MXCSR's flags beside its control bits (R16, R17) -/

/-- The flags lie below the control bits of MXCSR. -/
theorem State.getLsbD_orFlags_control (s : State) (a : FpFlags) {b : Nat} (hb : 6 ≤ b) :
    (s.orFlags a).mxcsr.getLsbD b = s.mxcsr.getLsbD b := by
  simp [BitVec.getLsbD_of_ge a.bits b hb]

theorem State.mxcsrMasks_orFlags (s : State) (a : FpFlags) : (s.orFlags a).mxcsrMasks = s.mxcsrMasks := by
  apply BitVec.eq_of_getLsbD_eq
  intro b _
  rw [State.mxcsrMasks, State.mxcsrMasks, BitVec.getLsbD_extractLsb', BitVec.getLsbD_extractLsb',
    s.getLsbD_orFlags_control a (by omega)]

theorem State.laneControl_orFlags (s : State) (a : FpFlags) (f : Form) :
    (s.orFlags a).laneControl f = s.laneControl f := by
  have hrc : (s.orFlags a).mxcsrRc = s.mxcsrRc := by
    simp only [State.mxcsrRc_eq, s.getLsbD_orFlags_control a (by omega : 6 ≤ 14),
      s.getLsbD_orFlags_control a (by omega : 6 ≤ 13)]
  have hdaz : (s.orFlags a).mxcsrDaz = s.mxcsrDaz := s.getLsbD_orFlags_control a (by omega)
  have hftz : (s.orFlags a).mxcsrFtz = s.mxcsrFtz := s.getLsbD_orFlags_control a (by omega)
  simp only [State.laneControl, State.roundMode, State.laneMasks, hrc, hdaz, hftz, s.mxcsrMasks_orFlags,
    State.orFlags_config]

/-- The flags that are set do not enter any lane. -/
theorem State.newDest_orFlags (s : State) (a : FpFlags) (f : Form) (t3 : Nat → Fp16) :
    (s.orFlags a).newDest f t3 = s.newDest f t3 := by
  have hlane : (s.orFlags a).laneResult f t3 = s.laneResult f t3 := by
    funext j
    rw [State.laneResult, State.laneResult, s.laneControl_orFlags]
    rfl
  have hnew : (s.orFlags a).newLane f t3 = s.newLane f t3 := by
    funext j
    rw [State.newLane, State.newLane, hlane]
    rfl
  rw [State.newDest, State.newDest, hnew]

/-! ### An unmasked flag (R88, R137) -/

/-- An unmasked flag of one active lane is one of all of them together. -/
theorem State.detected_unmasked {s : State} {f : Form} {t3 : Nat → Fp16} {masks : BitVec 6} {j : Nat}
    (hj : Active f s j) (h : (s.laneResult f t3 j).2.unmasked masks = true) :
    (s.detected f t3).unmasked masks = true := by
  rw [FpFlags.unmasked_iff] at h ⊢
  obtain ⟨b, hbit, hmask⟩ := h
  exact ⟨b, (s.getLsbD_detected f t3 b).2 ⟨j, (s.mem_activeLanes f j).2 hj, hbit⟩, hmask⟩

/-- Flags with an unmasked one among them, once ORed into MXCSR, stand there beside a mask that is 0. -/
theorem State.orFlags_unmasked {s : State} {a : FpFlags} (h : a.unmasked s.mxcsrMasks = true) :
    (s.orFlags a).mxcsr.extractLsb' 0 6 &&& ~~~s.mxcsrMasks ≠ 0#6 := by
  obtain ⟨b, hbit, hmask⟩ := (a.unmasked_iff _).1 h
  have hlt : b < 6 := by
    by_contra hge
    simp [BitVec.getLsbD_of_ge a.bits b (Nat.le_of_not_lt hge)] at hbit
  have hset : (s.orFlags a).mxcsr.getLsbD b = true := by
    rw [s.getLsbD_orFlags a (by omega), hbit, Bool.or_true]
  intro hzero
  have hb := congrArg (·.getLsbD b) hzero
  simp only [BitVec.getLsbD_and, BitVec.getLsbD_extractLsb', BitVec.getLsbD_not, Nat.zero_add, hset, hmask, hlt] at hb
  simp at hb

/-- Settles O38: the unmasked lane rules out completion, and what the raise reports holds an unmasked flag. -/
theorem unmaskedLaneRaises : Obligations.UnmaskedLaneRaises := by
  intro i s j hs henabled hreadable her hj hlane
  have hdetected : (s.detected i.form (thirdElement i.form s)).unmasked s.mxcsrMasks = true :=
    State.detected_unmasked hj (bne_iff_ne.2 hlane)
  obtain ⟨t, ht⟩ := execLanes_next i.form (thirdElement i.form s) s
  have hexec : exec i s = .next t := by rw [exec_eq, execPacked_enabled henabled hreadable, ht]
  rcases (execLanes_cases ht).raises_or_completes with ⟨_, a, hunmasked, hraise⟩ | ⟨hnone, _⟩
  · have hwrites : Writes a s t := .raised _ (simdException_ne_ac s) hraise
    refine ⟨t, hexec, ?_, ?_, ?_, ?_, fun b hb => ?_, hwrites.restUnchanged⟩
    · rw [hraise, State.takeException_raised]
      rfl
    · rw [hraise, State.takeException_zmm, State.orFlags_zmm]
    · rw [hraise, State.takeException_rip, State.orFlags_rip]
    · have hmasks : t.mxcsrMasks = s.mxcsrMasks := by
        rw [State.mxcsrMasks, hwrites.mxcsr_eq]
        exact s.mxcsrMasks_orFlags a
      rw [hmasks, hwrites.mxcsr_eq]
      exact State.orFlags_unmasked hunmasked
    · simp [hwrites.mxcsr_eq, hb]
  · rw [hnone her] at hdetected
    cases hdetected

/-! ### Embedded rounding (R59, R89) -/

/-- R59: operand 3 of an embedded-rounding row is a register. -/
theorem src3_eq_reg_of_er {i : Instr} (h : i.form.er ≠ none) : ∃ r, i.form.src3 = .reg r := by
  cases i with
  | vfmadd132phEr o | vfmadd213phEr o | vfmadd231phEr o | vfnmadd132phEr o | vfnmadd213phEr o | vfnmadd231phEr o =>
    exact ⟨o.src3, rfl⟩
  | _ => exact absurd rfl h

theorem State.laneControl_masks_of_er (s : State) {f : Form} (h : f.er ≠ none) :
    { s.laneControl f with masks := BitVec.allOnes 6 } = s.laneControl f := by
  obtain ⟨rc, hrc⟩ := Option.ne_none_iff_exists'.1 h
  simp only [State.laneControl, State.laneMasks, hrc]

/-- R83. -/
theorem State.newLane_of_active {s : State} {f : Form} (t3 : Nat → Fp16) {j : Nat} (h : Active f s j) :
    s.newLane f t3 j = (s.laneResult f t3 j).1 := by
  obtain ⟨_, hselects⟩ := h
  rw [State.newLane, if_pos ((s.laneActive_iff f.mask j).2 hselects)]

/-- Settles O40: the row completes without flags, and its lanes see every mask set whatever MXCSR holds. -/
theorem embeddedRoundingSuppressesExceptions : Obligations.EmbeddedRoundingSuppressesExceptions := by
  intro i s her henabled
  obtain ⟨r, hsrc⟩ := src3_eq_reg_of_er her
  have hreadable : OperandReadable i.form s := by simp [OperandReadable, hsrc]
  refine ⟨fun m v hmem => by simp [hsrc] at hmem,
    s.complete i.form (thirdElement i.form s) .empty, ?_, ?_, rfl, fun j hj => ?_⟩
  · rw [exec_eq, execPacked_enabled henabled hreadable,
      execLanes_of_er s _ (Option.isSome_iff_ne_none.2 her)]
  · simp
  · have hlt : j < i.form.vl.lanes := hj.1
    rw [State.lane_complete_dest s _ _ _ hlt, State.newLane_of_active _ hj, s.laneControl_masks_of_er her]
    rfl

/-! ### Restart with every exception masked (R140) -/

theorem State.mxcsrMasks_maskAll (s : State) : s.maskAll.mxcsrMasks = BitVec.allOnes 6 := by
  have hset : ∀ b < 13, 7 ≤ b → (0x1F80#32).getLsbD b = true := by decide
  refine State.mxcsrMasks_eq_allOnes fun b hlow hhigh => ?_
  rw [State.maskAll, State.setMxcsr_mxcsr, BitVec.getLsbD_or, hset b (by omega) hlow, Bool.or_true]

theorem State.maskAll_orFlags (s : State) (a : FpFlags) : (s.orFlags a).maskAll = s.maskAll.orFlags a := by
  have hor : s.mxcsr ||| a.bits.setWidth 32 ||| 0x1F80#32 = s.mxcsr ||| 0x1F80#32 ||| a.bits.setWidth 32 := by
    rw [BitVec.or_assoc, BitVec.or_comm (a.bits.setWidth 32), ← BitVec.or_assoc]
  exact congrArg s.setMxcsr hor

theorem thirdElement_orFlags (f : Form) (s : State) (a : FpFlags) :
    thirdElement f (s.orFlags a) = thirdElement f s := rfl

theorem SimdEnabled.setMxcsr {f : Form} {s : State} (h : SimdEnabled f s) (m : BitVec 32) :
    SimdEnabled f (s.setMxcsr m) := h

theorem OperandReadable.setMxcsr {f : Form} {s : State} (h : OperandReadable f s) (m : BitVec 32) :
    OperandReadable f (s.setMxcsr m) := h

/-- The premise of R162 from the checks that `execPacked` makes. -/
theorem SimdEnabled.of_checks {f : Form} {s : State} (hm : s.in64BitMode = true) (hf : s.featureMissing f = false)
    (hos : s.osEnabled = true) (hts : s.taskSwitched = false) (hregs : s.hasRegisters f = true) : SimdEnabled f s := by
  obtain ⟨hpe, hvm⟩ : s.protectedMode = true ∧ s.vmFlag = false := by
    simpa [State.realOrVm86] using State.realOrVm86_of_in64BitMode hm
  obtain ⟨h512f, hfp16, hvl⟩ : s.config.hasAvx512f = true ∧ s.config.hasAvx512Fp16 = true ∧
      (f.vl = .v512 ∨ s.config.hasAvx512Vl = true) := by
    simpa [State.featureMissing, and_assoc, or_iff_not_imp_left] using hf
  exact ⟨hpe, hvm, hm, hts, hos, h512f, hfp16, hvl, hregs⟩

/-- R137, R139: #XM comes from the lanes alone, after every check has passed. -/
theorem exec_raises_xm {i : Instr} {s t : State} (hs : s.raised = none) (h : exec i s = .next t)
    (hxm : t.raised = some .xm) :
    SimdEnabled i.form s ∧ OperandReadable i.form s ∧ i.form.er = none ∧ ∃ a, t = (s.orFlags a).takeException .xm := by
  rw [exec_eq] at h
  cases execPacked_cases h with
  | ud c h => simp [h] at hxm
  | nm c h => simp [h] at hxm
  | address bcst m src c h =>
    rw [h, State.takeException_raised] at hxm
    split at hxm <;> cases hxm
  | pageFault bcst m src la code c h => simp [h] at hxm
  | lanes enabled readable h =>
    obtain ⟨hm, hf, hos, hts, hregs⟩ := enabled
    rcases h.raises_or_completes with ⟨her, a, _, ht⟩ | ⟨_, a, ht⟩
    · have hsimd : s.simdException = .xm := by simpa [ht] using hxm
      exact ⟨.of_checks hm hf hos hts hregs, readable, her, a, by rw [ht, hsimd]⟩
    · rw [ht, State.complete_raised, hs] at hxm
      cases hxm

/-- The record of a SIMD exception taken back. -/
theorem State.setRaised_none_takeException_xm {s : State} (h : s.raised = none) :
    (s.takeException .xm).setRaised none = s := by
  rw [← h]
  rfl

/-- An instruction without embedded rounding completes when every exception is masked (R88). -/
theorem exec_of_allMasked {i : Instr} {s : State} (henabled : SimdEnabled i.form s)
    (hreadable : OperandReadable i.form s) (er : i.form.er = none) (h : s.mxcsrMasks = BitVec.allOnes 6) :
    exec i s = .next (s.complete i.form (thirdElement i.form s) (s.detected i.form (thirdElement i.form s))) := by
  rw [exec_eq, execPacked_enabled henabled hreadable, execLanes_of_allMasked _ er h]

/-- Settles O42: after the raise the machine differs in MXCSR flags alone, which enter no lane. -/
theorem restartAfterSimdException : Obligations.RestartAfterSimdException := by
  intro i s t hs h hxm
  obtain ⟨henabled, hreadable, her, a, rfl⟩ := exec_raises_xm hs h hxm
  have hrestart : (((s.orFlags a).takeException .xm).setRaised none).maskAll = s.maskAll.orFlags a := by
    rw [State.setRaised_none_takeException_xm (s := s.orFlags a) hs, s.maskAll_orFlags]
  have hmasks : (s.maskAll.orFlags a).mxcsrMasks = BitVec.allOnes 6 :=
    (s.maskAll.mxcsrMasks_orFlags a).trans s.mxcsrMasks_maskAll
  have hagain := exec_of_allMasked (s := s.maskAll.orFlags a) (henabled.setMxcsr _) (hreadable.setMxcsr _) her hmasks
  have hfirst := exec_of_allMasked (s := s.maskAll) (henabled.setMxcsr _) (hreadable.setMxcsr _) her s.mxcsrMasks_maskAll
  refine ⟨_, _, (congrArg (exec i) hrestart).trans hagain, hfirst, ?_, ?_, ?_, ?_⟩
  · rw [State.complete_raised]
    exact hs
  · rw [State.complete_raised]
    exact hs
  · rw [State.complete_zmm, State.complete_zmm, State.newDest_orFlags, thirdElement_orFlags, State.orFlags_zmm]
  · rw [State.complete_rip, State.complete_rip, State.orFlags_rip]

end Sys2Proof.Machine

/-!
The FP16 patterns in order (41_fp16_lane_numerics.md R95 to R97): a pattern is a sign and a number of fifteen bits, its
class and its magnitude are those of the number, and magnitudes grow with the numbers. Rounding (R100) chooses between the
two neighbours of an exact result in this order.
-/

namespace Sys2Proof.Machine

open Sys2Proof

/-! ### A pattern as a sign and a number (R95) -/

/-- Exponent and fraction of a pattern, read as one number. -/
def magBits (h : Fp16) : Nat := h.toNat % 2 ^ 15

/-- The pattern of a sign and such a number. -/
def pattern (s : Bool) (n : Nat) : Fp16 := withSign s (BitVec.ofNat 15 n)

theorem toNat_withSign (s : Bool) (m : BitVec 15) : (withSign s m).toNat = s.toNat * 2 ^ 15 + m.toNat := by
  rw [withSign, BitVec.toNat_append, ← Nat.shiftLeft_add_eq_or_of_lt m.isLt, Nat.shiftLeft_eq, BitVec.toNat_ofBool]

theorem magBits_withSign (s : Bool) (m : BitVec 15) : magBits (withSign s m) = m.toNat := by
  have := m.isLt
  rw [magBits, toNat_withSign]
  omega

theorem fpSign_eq_decide (h : Fp16) : fpSign h = decide (2 ^ 15 ≤ h.toNat) := by
  have := h.isLt
  rw [fpSign, BitVec.getLsbD, Nat.testBit_eq_decide_div_mod_eq]
  exact decide_eq_decide.2 (by omega)

@[simp] theorem fpSign_withSign (s : Bool) (m : BitVec 15) : fpSign (withSign s m) = s := by
  have := m.isLt
  rw [fpSign_eq_decide, toNat_withSign]
  cases s <;> simp [this]

/-- A pattern is its sign and its number. -/
theorem eq_of_sign_of_magBits {g h : Fp16} (hs : fpSign g = fpSign h) (hm : magBits g = magBits h) : g = h := by
  rw [fpSign_eq_decide, fpSign_eq_decide, decide_eq_decide] at hs
  have := g.isLt
  have := h.isLt
  simp only [magBits] at hm
  exact BitVec.eq_of_toNat_eq (by omega)

@[simp] theorem fpSign_pattern (s : Bool) (n : Nat) : fpSign (pattern s n) = s := fpSign_withSign s _

theorem magBits_pattern (s : Bool) {n : Nat} (h : n < 2 ^ 15) : magBits (pattern s n) = n := by
  rw [pattern, magBits_withSign, BitVec.toNat_ofNat, Nat.mod_eq_of_lt h]

theorem magBits_lt (h : Fp16) : magBits h < 2 ^ 15 := Nat.mod_lt _ (by decide)

theorem pattern_magBits (h : Fp16) : pattern (fpSign h) (magBits h) = h :=
  eq_of_sign_of_magBits (fpSign_pattern _ _) (magBits_pattern _ (magBits_lt h))

/-! ### The classes (R96) by that number -/

theorem fpExp_toNat (h : Fp16) : (fpExp h).toNat = magBits h / 1024 := by
  rw [fpExp, magBits, BitVec.extractLsb'_toNat, Nat.shiftRight_eq_div_pow]
  omega

theorem fpFrac_toNat (h : Fp16) : (fpFrac h).toNat = magBits h % 1024 := by
  rw [fpFrac, magBits, BitVec.extractLsb'_toNat, Nat.shiftRight_zero]
  omega

theorem fpExp_eq_iff (h : Fp16) {n : Nat} (hn : n < 32) : fpExp h = BitVec.ofNat 5 n ↔ magBits h / 1024 = n := by
  rw [← BitVec.toNat_inj, fpExp_toNat, BitVec.toNat_ofNat, Nat.mod_eq_of_lt hn]

theorem fpFrac_eq_zero_iff (h : Fp16) : fpFrac h = 0#10 ↔ magBits h % 1024 = 0 := by
  rw [← BitVec.toNat_inj, fpFrac_toNat, BitVec.toNat_ofNat, Nat.zero_mod]

/-- Where each class stands among the numbers; quiet and signalling NaNs are told apart by fraction bit 9. -/
theorem fpClass_eq (h : Fp16) : fpClass h =
    if magBits h = 0 then .zero
    else if magBits h < 1024 then .denormal
    else if magBits h < 0x7C00 then .normal
    else if magBits h = 0x7C00 then .infinity
    else if (fpFrac h).getLsbD 9 then .qnan
    else .snan := by
  have := magBits_lt h
  simp only [fpClass, fpExp_eq_iff h (n := 0) (by decide), fpExp_eq_iff h (n := 31) (by decide), fpFrac_eq_zero_iff]
  split_ifs <;> grind

theorem isZero_iff (h : Fp16) : isZero h = true ↔ magBits h = 0 := by
  rw [isZero, beq_iff_eq, fpClass_eq]
  grind

theorem isDenormal_iff (h : Fp16) : isDenormal h = true ↔ magBits h ≠ 0 ∧ magBits h < 1024 := by
  rw [isDenormal, beq_iff_eq, fpClass_eq]
  grind

theorem isInf_iff (h : Fp16) : isInf h = true ↔ magBits h = 0x7C00 := by
  rw [isInf, beq_iff_eq, fpClass_eq]
  grind

theorem isNan_iff (h : Fp16) : isNan h = true ↔ 0x7C00 < magBits h := by
  rw [isNan, Bool.or_eq_true, beq_iff_eq, beq_iff_eq, fpClass_eq]
  grind

theorem isFinite_iff (h : Fp16) : isFinite h = true ↔ magBits h < 0x7C00 := by
  have := magBits_lt h
  rw [isFinite, bne_iff_ne, ne_eq, fpExp_eq_iff h (n := 31) (by decide)]
  omega

/-! ### The magnitudes in order (R97) -/

/-- The magnitude that number `n` has among the patterns, in units of 2^-24, carried on beyond the finite ones. -/
def patMag (n : Nat) : Nat := if n < 1024 then n else (1024 + n % 1024) * 2 ^ (n / 1024 - 1)

theorem fpMag_eq (h : Fp16) : fpMag h = patMag (magBits h) := by
  simp only [fpMag, patMag, fpExp_eq_iff h (n := 0) (by decide), fpExp_toNat, fpFrac_toNat]
  by_cases hsmall : magBits h < 1024
  · rw [if_pos hsmall, if_pos (Nat.div_eq_of_lt hsmall), Nat.mod_eq_of_lt hsmall]
  · rw [if_neg hsmall, if_neg (by omega)]

/-- `t` units of 2^k stand at number 1024*k + t, the carry into the next exponent included. -/
theorem patMag_add {k t : Nat} (hk : k = 0 ∨ 1024 ≤ t) (ht : t ≤ 2048) : patMag (1024 * k + t) = t * 2 ^ k := by
  by_cases hsmall : t < 1024
  · obtain rfl : k = 0 := by omega
    simp [patMag, hsmall]
  have hbig : ¬ 1024 * k + t < 1024 := by omega
  rw [patMag, if_neg hbig]
  rcases Nat.lt_or_eq_of_le ht with h | rfl
  · rw [show 1024 + (1024 * k + t) % 1024 = t by omega, show (1024 * k + t) / 1024 - 1 = k by omega]
  · have hcarry : (1024 * k + 2048) % 1024 = 0 ∧ (1024 * k + 2048) / 1024 - 1 = k + 1 := by omega
    simp only [hcarry, Nat.pow_succ']
    omega

/-- Every number is some `1024 * k + t` of that kind. -/
theorem exists_scale_of_number (n : Nat) : ∃ k t, n = 1024 * k + t ∧ (k = 0 ∨ 1024 ≤ t) ∧ t < 2048 := by
  by_cases h : n < 1024
  · exact ⟨0, n, by omega, .inl rfl, by omega⟩
  · exact ⟨n / 1024 - 1, 1024 + n % 1024, by omega, .inr (by omega), by omega⟩

theorem patMag_strictMono : StrictMono patMag := by
  refine strictMono_nat_of_lt_succ fun n => ?_
  obtain ⟨k, t, rfl, hk, ht⟩ := exists_scale_of_number n
  rw [Nat.add_assoc, patMag_add hk ht.le, patMag_add (hk.imp_right Nat.le_succ_of_le) ht]
  exact Nat.mul_lt_mul_of_pos_right t.lt_succ_self (Nat.two_pow_pos k)

@[simp] theorem patMag_zero : patMag 0 = 0 := rfl

theorem patMag_eq_zero {n : Nat} : patMag n = 0 ↔ n = 0 := patMag_strictMono.injective.eq_iff (b := 0)

/-- 2^-14, the least normal magnitude. -/
theorem patMag_leastNormal : patMag 1024 = 2 ^ 10 := by decide

/-- 65504. -/
theorem patMag_greatestFinite : patMag 0x7BFF = 65504 * 2 ^ 24 := by decide

/-- 65536. -/
theorem patMag_beyondFinite : patMag 0x7C00 = 65536 * 2 ^ 24 := by decide

/-! ### Rounding in that order (R100, R105) -/

/-- How many powers of two the last place at `a` (in units of 2^-48) stands above 2^-24. -/
def ulpExp (a : Nat) : Nat := a.log2 - 34

/-- The number of the greatest magnitude not above `a` units of 2^-48. -/
def floorPat (a : Nat) : Nat := 1024 * ulpExp a + a / 2 ^ (24 + ulpExp a)

/-- The number that rounding to the last place delivers, of unbounded exponent above. -/
def roundPat (a : Nat) (s : Bool) (rm : RoundMode) : Nat := 1024 * ulpExp a + roundInt a (2 ^ (24 + ulpExp a)) s rm

/-- The quotient at the last place has eleven bits, and the first is set unless the last place is 2^-24. -/
theorem quotient_bounds {a : Nat} (ha : a ≠ 0) :
    (ulpExp a = 0 ∨ 1024 ≤ a / 2 ^ (24 + ulpExp a)) ∧ a / 2 ^ (24 + ulpExp a) < 2048 := by
  have hlow := Nat.log2_self_le ha
  have hhigh := Nat.lt_log2_self (n := a)
  rw [Nat.div_lt_iff_lt_mul (Nat.two_pow_pos _), Nat.le_div_iff_mul_le (Nat.two_pow_pos _), ulpExp]
  rcases Nat.lt_or_ge a.log2 34 with h | h
  · have hle : 2 ^ (a.log2 + 1) ≤ 2 ^ 34 := Nat.pow_le_pow_right (by decide) h
    rw [show a.log2 - 34 = 0 by omega]
    omega
  · obtain ⟨k, hk⟩ := Nat.exists_eq_add_of_le h
    rw [hk] at hlow hhigh ⊢
    rw [show 34 + k - 34 = k by omega]
    rw [show 34 + k + 1 = 11 + (24 + k) by omega, Nat.pow_add 2 11] at hhigh
    rw [show 34 + k = 10 + (24 + k) by omega, Nat.pow_add 2 10] at hlow
    omega

theorem patMag_floorPat_mul (a : Nat) (ha : a ≠ 0) :
    patMag (floorPat a) * 2 ^ 24 = 2 ^ (24 + ulpExp a) * (a / 2 ^ (24 + ulpExp a)) := by
  obtain ⟨hk, ht⟩ := quotient_bounds ha
  rw [floorPat, patMag_add hk ht.le, Nat.pow_add]
  ring

theorem patMag_floorPat_succ_mul (a : Nat) (ha : a ≠ 0) :
    patMag (floorPat a + 1) * 2 ^ 24 = 2 ^ (24 + ulpExp a) * (a / 2 ^ (24 + ulpExp a)) + 2 ^ (24 + ulpExp a) := by
  obtain ⟨hk, ht⟩ := quotient_bounds ha
  rw [floorPat, Nat.add_assoc, patMag_add (hk.imp_right Nat.le_succ_of_le) ht, Nat.succ_eq_add_one, Nat.pow_add]
  ring

theorem patMag_floorPat_le {a : Nat} (ha : a ≠ 0) : patMag (floorPat a) * 2 ^ 24 ≤ a := by
  rw [patMag_floorPat_mul a ha]
  exact Nat.mul_div_le a _

theorem lt_patMag_floorPat_succ {a : Nat} (ha : a ≠ 0) : a < patMag (floorPat a + 1) * 2 ^ 24 := by
  rw [patMag_floorPat_succ_mul a ha]
  exact Nat.lt_mul_div_succ a (Nat.two_pow_pos _)

theorem le_floorPat_iff {a n : Nat} (ha : a ≠ 0) : n ≤ floorPat a ↔ patMag n * 2 ^ 24 ≤ a := by
  refine ⟨fun h => (Nat.mul_le_mul_right _ (patMag_strictMono.monotone h)).trans (patMag_floorPat_le ha), fun h => ?_⟩
  have hlt := Nat.lt_of_mul_lt_mul_right (h.trans_lt (lt_patMag_floorPat_succ ha))
  exact Nat.lt_succ_iff.1 (patMag_strictMono.lt_iff_lt.1 hlt)

/-- Nothing lies below the last place exactly when `a` is a magnitude. -/
theorem mod_ulp_eq_zero_iff {a : Nat} (ha : a ≠ 0) :
    a % 2 ^ (24 + ulpExp a) = 0 ↔ patMag (floorPat a) * 2 ^ 24 = a := by
  rw [patMag_floorPat_mul a ha]
  have := Nat.div_add_mod a (2 ^ (24 + ulpExp a))
  omega

/-- The next magnitude away from zero is delivered instead of the last one not above `a`. -/
def RoundsUp (a : Nat) (s : Bool) (rm : RoundMode) : Prop :=
  patMag (floorPat a) * 2 ^ 24 ≠ a ∧
    match rm with
    | .rn => (patMag (floorPat a) + patMag (floorPat a + 1)) * 2 ^ 24 < 2 * a ∨
        ((patMag (floorPat a) + patMag (floorPat a + 1)) * 2 ^ 24 = 2 * a ∧ floorPat a % 2 = 1)
    | .rd => s = true
    | .ru => s = false
    | .rz => False

/-- R100 on the patterns: one of the two neighbours of `a`. -/
theorem roundPat_cases {a : Nat} (ha : a ≠ 0) (s : Bool) (rm : RoundMode) :
    (RoundsUp a s rm ∧ roundPat a s rm = floorPat a + 1) ∨ (¬ RoundsUp a s rm ∧ roundPat a s rm = floorPat a) := by
  have hmod := mod_ulp_eq_zero_iff ha
  have hmul := patMag_floorPat_mul a ha
  have hsucc := patMag_floorPat_succ_mul a ha
  have hdiv := Nat.div_add_mod a (2 ^ (24 + ulpExp a))
  simp only [RoundsUp, roundPat, roundInt]
  by_cases hexact : a % 2 ^ (24 + ulpExp a) = 0
  · exact .inr ⟨fun h => h.1 (hmod.1 hexact), by rw [if_pos hexact, floorPat]⟩
  rw [if_neg hexact, ne_eq, ← hmod]
  simp only [hexact, not_false_eq_true, true_and]
  cases rm with
  | rn =>
    rw [Nat.add_mul, hmul, hsucc, floorPat]
    simp only
    split <;> omega
  | rd => cases s <;> simp [floorPat, Nat.add_assoc]
  | ru => cases s <;> simp [floorPat, Nat.add_assoc]
  | rz => simp [floorPat]

end Sys2Proof.Machine

/-!
One rounding of a non-zero exact result (R105 to R108): the binades, the carry, overflow and tiny results of `roundFinite`
said once in the order of the patterns; from that the thresholds, the flags and how near the delivered magnitude is.
-/

namespace Sys2Proof.Machine

open Sys2Proof

/-! ### The rounding of a lane (R105 to R107) -/

theorem roundInt_mul_right (num den : Nat) (s : Bool) (rm : RoundMode) {c : Nat} (hc : 0 < c) :
    roundInt (num * c) (den * c) s rm = roundInt num den s rm := by
  have hlt : den * c < 2 * (num % den * c) ↔ den < 2 * (num % den) := by
    rw [← Nat.mul_assoc, Nat.mul_lt_mul_right hc]
  have heq : 2 * (num % den * c) = den * c ↔ 2 * (num % den) = den := by
    rw [← Nat.mul_assoc, Nat.mul_left_inj hc.ne']
  have hzero : num % den * c = 0 ↔ num % den = 0 := by rw [Nat.mul_eq_zero, or_iff_left hc.ne']
  simp only [roundInt, Nat.mul_div_mul_right _ _ hc, Nat.mul_mod_mul_right, hlt, heq, hzero]

theorem roundInt_bounds (num den : Nat) (s : Bool) (rm : RoundMode) :
    num / den ≤ roundInt num den s rm ∧ roundInt num den s rm ≤ num / den + 1 := by
  cases rm <;> simp only [roundInt] <;> split_ifs <;> omega

/-- `a` units of 2^-48 have bits below their last place. -/
def inexact (a : Nat) : Bool := a % 2 ^ (24 + ulpExp a) != 0

theorem inexact_eq_false_iff {a : Nat} (ha : a ≠ 0) : inexact a = false ↔ patMag (floorPat a) * 2 ^ 24 = a := by
  rw [inexact, bne_eq_false_iff_eq, mod_ulp_eq_zero_iff ha]

/-- Where tiny results end (R105): from here on, eleven bits round up to 2^-14 or stand above it already. -/
def tinyBound (s : Bool) : RoundMode → Nat
  | .rn => 2 ^ 34 - 2 ^ 22
  | .rd => if s then 2 ^ 34 - 2 ^ 23 + 1 else 2 ^ 34
  | .ru => if s then 2 ^ 34 else 2 ^ 34 - 2 ^ 23 + 1
  | .rz => 2 ^ 34

theorem tinyBound_bounds (s : Bool) (rm : RoundMode) : 2 ^ 34 - 2 ^ 23 < tinyBound s rm ∧ tinyBound s rm ≤ 2 ^ 34 := by
  cases s <;> cases rm <;> decide

theorem ulpExp_eq_zero {a : Nat} (h : a < 2 ^ 34) : ulpExp a = 0 := by
  rcases Nat.eq_zero_or_pos a with rfl | hpos
  · rfl
  · have := (Nat.log2_lt hpos.ne').2 h
    rw [ulpExp]
    omega

/-- A rounded magnitude of the last binade below 2^-14 carries into 2^-14 exactly from `tinyBound` on. -/
theorem roundInt_eq_carry_iff {a : Nat} (hlow : 2 ^ 33 ≤ a) (hhigh : a < 2 ^ 34) (s : Bool) (rm : RoundMode) :
    roundInt a (2 ^ 23) s rm = 2048 ↔ tinyBound s rm ≤ a := by
  cases rm <;> cases s <;> simp only [roundInt, tinyBound] <;> split_ifs <;> omega

theorem roundInt_of_carry {a : Nat} {s : Bool} {rm : RoundMode} (hlow : tinyBound s rm ≤ a) (hhigh : a < 2 ^ 34) :
    roundInt a (2 ^ 24) s rm = 1024 ∧ a % 2 ^ 24 ≠ 0 ∧ a % 2 ^ 23 ≠ 0 := by
  cases rm <;> cases s <;> simp only [roundInt, tinyBound] at * <;> split_ifs at * <;> omega

/-- Exponent and fraction side by side are one number. -/
theorem pattern_of_fields (s : Bool) {e f n : Nat} (he : e < 32) (hf : f < 1024) (hn : 1024 * e + f = n) :
    withSign s (BitVec.ofNat 5 e ++ BitVec.ofNat 10 f) = pattern s n := by
  refine congrArg _ (BitVec.eq_of_toNat_eq ?_)
  rw [BitVec.toNat_append, BitVec.toNat_ofNat, BitVec.toNat_ofNat, BitVec.toNat_ofNat, Nat.mod_eq_of_lt he,
    Nat.mod_eq_of_lt hf, ← Nat.shiftLeft_add_eq_or_of_lt hf, Nat.shiftLeft_eq]
  omega

theorem tinyResult_eq (c : LaneControl) (s : Bool) {a : Nat} (h : a < 2 ^ 34) :
    tinyResult c s a = if c.ftz && c.um then (pattern s 0, { ue := true, pe := true })
      else (pattern s (roundPat a s c.rm), { ue := inexact a || !c.um, pe := inexact a }) := by
  simp only [tinyResult, roundPat, inexact, ulpExp_eq_zero h, pattern, Nat.mul_zero, Nat.zero_add, Nat.add_zero]

/-- Eleven bits below 2^-14: tiny, or carried into 2^-14. -/
theorem roundFinite_of_lt (c : LaneControl) (s : Bool) {a : Nat} (ha : a ≠ 0) (h : a < 2 ^ 34) :
    roundFinite c s a =
      if a < tinyBound s c.rm then tinyResult c s a else (pattern s 1024, { pe := true }) := by
  have hlog := (Nat.log2_lt ha).2 h
  simp only [roundFinite]
  by_cases htop : a.log2 = 33
  · have hlow : 2 ^ 33 ≤ a := htop ▸ Nat.log2_self_le ha
    rw [htop, show 2 ^ 33 = 2 ^ 23 * 2 ^ 10 by rfl, roundInt_mul_right _ _ _ _ (by decide), Nat.mul_mod_mul_right]
    have hcarry := roundInt_eq_carry_iff hlow h s c.rm
    by_cases htiny : a < tinyBound s c.rm
    · have hno : ¬ roundInt a (2 ^ 23) s c.rm = 2048 := by omega
      rw [if_neg hno, if_pos htiny, if_neg (by decide), if_neg (by decide)]
    · obtain ⟨-, -, hrest⟩ := roundInt_of_carry (Nat.le_of_not_lt htiny) h
      rw [hcarry.2 (Nat.le_of_not_lt htiny), if_neg htiny]
      simpa [pattern] using hrest
  · have hlow : a < 2 ^ 33 := (Nat.log2_lt ha).1 (by omega)
    have hbound := (tinyBound_bounds s c.rm).1
    have htiny : a < tinyBound s c.rm := by omega
    rw [if_pos htiny, if_neg (by split_ifs <;> omega), if_neg (by split_ifs <;> omega)]

/-- Eleven bits from 2^-14 on: the exponent of R105 is that of the last place, and a carry moves to the next number. -/
theorem roundFinite_of_le (c : LaneControl) (s : Bool) {a : Nat} (h : 2 ^ 34 ≤ a) :
    roundFinite c s a =
      if 0x7C00 ≤ roundPat a s c.rm then (overflowResult s c.rm, { oe := true, pe := true })
      else (pattern s (roundPat a s c.rm), { pe := inexact a }) := by
  have ha : a ≠ 0 := by omega
  obtain ⟨k, hk⟩ := Nat.exists_eq_add_of_le ((Nat.le_log2 ha).2 h)
  have hulp : ulpExp a = k := by rw [ulpExp, hk, Nat.add_sub_cancel_left]
  obtain ⟨hfirst, hbits⟩ := quotient_bounds ha
  obtain ⟨hfloor, hceil⟩ := roundInt_bounds a (2 ^ (24 + k)) s c.rm
  have hone : 1024 ≤ a / 2 ^ (24 + ulpExp a) := by
    rcases hfirst with hzero | hone
    · rw [hzero]
      omega
    · exact hone
  rw [hulp] at hone hbits
  simp only [roundFinite, roundPat, inexact, hulp, hk]
  rw [show 34 + k = 24 + k + 10 by omega, Nat.pow_add 2 (24 + k) 10, roundInt_mul_right _ _ _ _ (by decide),
    Nat.mul_mod_mul_right]
  generalize roundInt a (2 ^ (24 + k)) s c.rm = q at *
  have hpe : (a % 2 ^ (24 + k) * 2 ^ 10 != 0) = (a % 2 ^ (24 + k) != 0) := by
    rw [Bool.eq_iff_iff, bne_iff_ne, bne_iff_ne]
    omega
  rw [hpe]
  by_cases hcarry : q = 2048
  · rw [hcarry]
    simp only [if_true]
    by_cases hover : 0x7C00 ≤ 1024 * k + 2048
    · rw [if_pos hover, if_pos (by omega)]
    · rw [if_neg hover, if_neg (by omega), if_pos (by omega),
        pattern_of_fields (n := 1024 * k + 2048) s (by omega) (by omega) (by omega)]
  · simp only [if_neg hcarry]
    by_cases hover : 0x7C00 ≤ 1024 * k + q
    · rw [if_pos hover, if_pos (by omega)]
    · rw [if_neg hover, if_neg (by omega), if_pos (by omega),
        pattern_of_fields (n := 1024 * k + q) s (by omega) (by omega) (by omega)]

/-- Below 2^-14 the last place is 2^-24; a carry stops at the least normal number. -/
theorem roundPat_le_of_lt {a : Nat} (h : a < 2 ^ 34) (s : Bool) (rm : RoundMode) : roundPat a s rm ≤ 1024 := by
  have hceil := (roundInt_bounds a (2 ^ 24) s rm).2
  rw [roundPat, ulpExp_eq_zero h, Nat.mul_zero, Nat.zero_add, Nat.add_zero]
  omega

/-- R105 to R107 as one rounding in the order of the patterns. -/
theorem roundFinite_eq (c : LaneControl) (s : Bool) {a : Nat} (ha : a ≠ 0) :
    roundFinite c s a =
      if a < tinyBound s c.rm then
        if c.ftz && c.um then (pattern s 0, { ue := true, pe := true })
        else (pattern s (roundPat a s c.rm), { ue := inexact a || !c.um, pe := inexact a })
      else if 0x7C00 ≤ roundPat a s c.rm then (overflowResult s c.rm, { oe := true, pe := true })
      else (pattern s (roundPat a s c.rm), { pe := inexact a }) := by
  rcases Nat.lt_or_ge a (2 ^ 34) with h | h
  · rw [roundFinite_of_lt c s ha h, tinyResult_eq c s h]
    have hover : ¬ 0x7C00 ≤ roundPat a s c.rm := by
      have := roundPat_le_of_lt h s c.rm
      omega
    by_cases htiny : a < tinyBound s c.rm
    · rw [if_pos htiny, if_pos htiny]
    · obtain ⟨hround, hrest, -⟩ := roundInt_of_carry (Nat.le_of_not_lt htiny) h
      rw [if_neg htiny, if_neg htiny, if_neg hover]
      simp only [roundPat, inexact, ulpExp_eq_zero h, Nat.mul_zero, Nat.zero_add, Nat.add_zero, hround]
      simpa using hrest
  · have htiny : ¬ a < tinyBound s c.rm := by
      have := (tinyBound_bounds s c.rm).2
      omega
    rw [roundFinite_of_le c s h, if_neg htiny]

/-! ### What rounding delivers -/

/-- The mode rounds a value of sign `s` toward zero (R100). -/
def TowardZero (s : Bool) (rm : RoundMode) : Prop := rm = .rz ∨ rm = .rd ∧ s = false ∨ rm = .ru ∧ s = true

/-- The mode rounds a value of sign `s` away from zero (R100). -/
def AwayFromZero (s : Bool) (rm : RoundMode) : Prop := rm = .rd ∧ s = true ∨ rm = .ru ∧ s = false

theorem mode_cases (s : Bool) (rm : RoundMode) : TowardZero s rm ∨ AwayFromZero s rm ∨ rm = .rn := by
  cases rm <;> cases s <;> simp [TowardZero, AwayFromZero]

theorem roundPat_towardZero {a : Nat} (ha : a ≠ 0) {s : Bool} {rm : RoundMode} (h : TowardZero s rm) :
    roundPat a s rm = floorPat a := by
  have hdown : ¬ RoundsUp a s rm := by
    rintro ⟨-, hup⟩
    rcases h with rfl | ⟨rfl, rfl⟩ | ⟨rfl, rfl⟩ <;> simp at hup
  rcases roundPat_cases ha s rm with ⟨hup, -⟩ | ⟨-, heq⟩
  · exact absurd hup hdown
  · exact heq

theorem roundPat_of_exact {a : Nat} (ha : a ≠ 0) (s : Bool) (rm : RoundMode)
    (h : patMag (floorPat a) * 2 ^ 24 = a) : roundPat a s rm = floorPat a := by
  rcases roundPat_cases ha s rm with ⟨⟨hne, -⟩, -⟩ | ⟨-, heq⟩
  · exact absurd h hne
  · exact heq

theorem roundPat_awayFromZero {a : Nat} (ha : a ≠ 0) {s : Bool} {rm : RoundMode} (h : AwayFromZero s rm)
    (hinexact : patMag (floorPat a) * 2 ^ 24 ≠ a) : roundPat a s rm = floorPat a + 1 := by
  have hup : RoundsUp a s rm := by
    refine ⟨hinexact, ?_⟩
    rcases h with ⟨rfl, rfl⟩ | ⟨rfl, rfl⟩ <;> rfl
  rcases roundPat_cases ha s rm with ⟨-, heq⟩ | ⟨hdown, -⟩
  · exact heq
  · exact absurd hup hdown

/-- To nearest: beyond the middle of its neighbours `a` goes up, below it down, and in it to the even one. -/
theorem roundPat_nearest {a : Nat} (ha : a ≠ 0) (s : Bool) :
    let p := floorPat a
    let middle := (patMag p + patMag (p + 1)) * 2 ^ 24
    (roundPat a s .rn = p + 1 ∧ (middle < 2 * a ∨ middle = 2 * a ∧ p % 2 = 1)) ∨
      (roundPat a s .rn = p ∧ (2 * a < middle ∨ middle = 2 * a ∧ p % 2 = 0)) := by
  have hup : RoundsUp a s .rn ↔ patMag (floorPat a) * 2 ^ 24 ≠ a ∧
      ((patMag (floorPat a) + patMag (floorPat a + 1)) * 2 ^ 24 < 2 * a ∨
        (patMag (floorPat a) + patMag (floorPat a + 1)) * 2 ^ 24 = 2 * a ∧ floorPat a % 2 = 1) := Iff.rfl
  have hmono := patMag_strictMono (floorPat a).lt_succ_self
  have hcases := roundPat_cases ha s .rn
  rw [hup] at hcases
  rw [Nat.succ_eq_add_one] at hmono
  simp only
  omega

theorem overflowResult_towardZero {s : Bool} {rm : RoundMode} (h : TowardZero s rm) :
    overflowResult s rm = pattern s 0x7BFF := by
  rcases h with rfl | ⟨rfl, rfl⟩ | ⟨rfl, rfl⟩ <;> rfl

theorem overflowResult_of_not_towardZero {s : Bool} {rm : RoundMode} (h : ¬ TowardZero s rm) :
    overflowResult s rm = pattern s 0x7C00 := by
  cases rm with
  | rn => rfl
  | rd =>
    cases s with
    | false => exact absurd (.inr (.inl ⟨rfl, rfl⟩)) h
    | true => rfl
  | ru =>
    cases s with
    | false => rfl
    | true => exact absurd (.inr (.inr ⟨rfl, rfl⟩)) h
  | rz => exact absurd (.inl rfl) h

/-- Where overflow begins (R105, R106). -/
def overflowBound (s : Bool) : RoundMode → Nat
  | .rn => 65520 * 2 ^ 48
  | .rd => if s then 65504 * 2 ^ 48 + 1 else 65536 * 2 ^ 48
  | .ru => if s then 65536 * 2 ^ 48 else 65504 * 2 ^ 48 + 1
  | .rz => 65536 * 2 ^ 48

theorem overflowBound_towardZero {s : Bool} {rm : RoundMode} (h : TowardZero s rm) :
    overflowBound s rm = 65536 * 2 ^ 48 := by
  rcases h with rfl | ⟨rfl, rfl⟩ | ⟨rfl, rfl⟩ <;> rfl

theorem overflowBound_awayFromZero {s : Bool} {rm : RoundMode} (h : AwayFromZero s rm) :
    overflowBound s rm = 65504 * 2 ^ 48 + 1 := by
  rcases h with ⟨rfl, rfl⟩ | ⟨rfl, rfl⟩ <;> rfl

theorem overflow_iff {a : Nat} (ha : a ≠ 0) (s : Bool) (rm : RoundMode) :
    0x7C00 ≤ roundPat a s rm ↔ overflowBound s rm ≤ a := by
  have hgreatest := le_floorPat_iff (n := 0x7BFF) ha
  have hbeyond := le_floorPat_iff (n := 0x7C00) ha
  rw [patMag_greatestFinite] at hgreatest
  rw [patMag_beyondFinite] at hbeyond
  have hlast : floorPat a = 0x7BFF → patMag (floorPat a) = 65504 * 2 ^ 24 ∧ patMag (floorPat a + 1) = 65536 * 2 ^ 24 :=
    fun h => h ▸ ⟨patMag_greatestFinite, patMag_beyondFinite⟩
  rcases mode_cases s rm with h | h | rfl
  · rw [roundPat_towardZero ha h, overflowBound_towardZero h]
    omega
  · rw [overflowBound_awayFromZero h]
    by_cases hexact : patMag (floorPat a) * 2 ^ 24 = a
    · rw [roundPat_of_exact ha s rm hexact]
      omega
    · rw [roundPat_awayFromZero ha h hexact]
      omega
  · have hnearest := roundPat_nearest ha s
    simp only at hnearest
    rw [overflowBound]
    omega

/-! ### The delivered pattern and its flags (R106 to R108) -/

@[simp] theorem fpSign_overflowResult (s : Bool) (rm : RoundMode) : fpSign (overflowResult s rm) = s :=
  fpSign_withSign s _

theorem magBits_overflowResult (s : Bool) (rm : RoundMode) :
    magBits (overflowResult s rm) = 0x7BFF ∧ TowardZero s rm ∨
      magBits (overflowResult s rm) = 0x7C00 ∧ ¬ TowardZero s rm := by
  by_cases h : TowardZero s rm
  · rw [overflowResult_towardZero h, magBits_pattern s (by decide)]
    exact .inl ⟨rfl, h⟩
  · rw [overflowResult_of_not_towardZero h, magBits_pattern s (by decide)]
    exact .inr ⟨rfl, h⟩

theorem not_overflow_of_tiny {a : Nat} {s : Bool} {rm : RoundMode} (h : a < tinyBound s rm) :
    ¬ 0x7C00 ≤ roundPat a s rm := by
  have := roundPat_le_of_lt (h.trans_le (tinyBound_bounds s rm).2) s rm
  omega

section

variable (c : LaneControl) (s : Bool) {a : Nat} (ha : a ≠ 0)

include ha

/-- Flush-to-zero aside, overflow replaces the rounded number. -/
theorem roundFinite_fst (hftz : c.ftz = false) :
    (roundFinite c s a).1 =
      if 0x7C00 ≤ roundPat a s c.rm then overflowResult s c.rm else pattern s (roundPat a s c.rm) := by
  rw [roundFinite_eq c s ha, hftz, Bool.false_and]
  by_cases htiny : a < tinyBound s c.rm
  · simp [htiny, not_overflow_of_tiny htiny]
  · rw [if_neg htiny]
    split_ifs <;> rfl

theorem roundFinite_of_overflow (h : 0x7C00 ≤ roundPat a s c.rm) :
    roundFinite c s a = (overflowResult s c.rm, { oe := true, pe := true }) := by
  rw [roundFinite_eq c s ha, if_neg (fun htiny => not_overflow_of_tiny htiny h), if_pos h]

theorem fpSign_roundFinite : fpSign (roundFinite c s a).1 = s := by
  rw [roundFinite_eq c s ha]
  split_ifs <;> simp

theorem magBits_roundFinite_le : magBits (roundFinite c s a).1 ≤ 0x7C00 := by
  rw [roundFinite_eq c s ha]
  split_ifs with htiny hflush hover
  · rw [magBits_pattern s (by decide)]
    decide
  · have := not_overflow_of_tiny htiny
    rw [magBits_pattern s (by omega)]
    omega
  · rcases magBits_overflowResult s c.rm with ⟨h, -⟩ | ⟨h, -⟩ <;> exact h.trans_le (by decide)
  · rw [magBits_pattern s (by omega)]
    omega

theorem roundFinite_pre_flags : (roundFinite c s a).2.ie = false ∧ (roundFinite c s a).2.de = false := by
  rw [roundFinite_eq c s ha]
  split_ifs <;> exact ⟨rfl, rfl⟩

theorem roundFinite_oe_iff : (roundFinite c s a).2.oe = true ↔ overflowBound s c.rm ≤ a := by
  rw [← overflow_iff ha]
  refine ⟨fun h => ?_, fun h => by rw [roundFinite_of_overflow c s ha h]⟩
  by_contra hover
  rw [roundFinite_eq c s ha, if_neg hover] at h
  split_ifs at h

theorem roundFinite_post_flags_of_oe (h : (roundFinite c s a).2.oe = true) :
    (roundFinite c s a).2.ue = false ∧ (roundFinite c s a).2.pe = true := by
  rw [roundFinite_oe_iff c s ha, ← overflow_iff ha] at h
  rw [roundFinite_of_overflow c s ha h]
  exact ⟨rfl, rfl⟩

/-- R107 by the bound of R105. -/
theorem roundFinite_ue (hftz : c.ftz = false) :
    (roundFinite c s a).2.ue = (decide (a < tinyBound s c.rm) && (inexact a || !c.um)) := by
  rw [roundFinite_eq c s ha, hftz, Bool.false_and]
  by_cases htiny : a < tinyBound s c.rm
  · simp [htiny]
  · rw [if_neg htiny]
    split_ifs <;> simp [htiny]

/-- A magnitude of some pattern is that of the last one not above it. -/
theorem floorPat_eq_of_patMag {n : Nat} (h : patMag n * 2 ^ 24 = a) : floorPat a = n := by
  have hle := (le_floorPat_iff ha).2 h.le
  have hfloor := (patMag_floorPat_le ha).trans h.ge
  have := patMag_strictMono.le_iff_le.1 (Nat.le_of_mul_le_mul_right hfloor (by decide))
  omega

theorem inexact_eq_false_of_patMag {n : Nat} (h : patMag n * 2 ^ 24 = a) : inexact a = false := by
  rwa [inexact_eq_false_iff ha, floorPat_eq_of_patMag ha h]

theorem roundPat_eq_of_patMag (rm : RoundMode) {n : Nat} (h : patMag n * 2 ^ 24 = a) : roundPat a s rm = n := by
  have hfloor := floorPat_eq_of_patMag ha h
  rw [roundPat_of_exact ha s rm (hfloor ▸ h), hfloor]

/-- R108 before the operands: PE exactly when the delivered magnitude is not `a`. -/
theorem roundFinite_pe_iff :
    (roundFinite c s a).2.pe = true ↔
      ¬ (isFinite (roundFinite c s a).1 = true ∧ patMag (magBits (roundFinite c s a).1) * 2 ^ 24 = a) := by
  have hdelivered : ∀ {n : Nat}, n = roundPat a s c.rm → n < 0x7C00 →
      (inexact a = true ↔ ¬ (isFinite (pattern s n) = true ∧ patMag (magBits (pattern s n)) * 2 ^ 24 = a)) := by
    intro n hn hfinite
    rw [isFinite_iff, magBits_pattern s (by omega), ← Bool.not_eq_false, not_iff_not]
    refine ⟨fun h => ⟨hfinite, ?_⟩, fun h => inexact_eq_false_of_patMag ha h.2⟩
    rw [inexact_eq_false_iff ha] at h
    rwa [hn, roundPat_of_exact ha s c.rm h]
  rw [roundFinite_eq c s ha]
  split_ifs with htiny hflush hover
  · simp [magBits_pattern, ha.symm]
  · have := not_overflow_of_tiny htiny
    exact hdelivered rfl (by omega)
  · refine iff_of_true rfl fun ⟨hfinite, hexact⟩ => ?_
    rw [roundPat_eq_of_patMag s ha c.rm hexact] at hover
    rw [isFinite_iff] at hfinite
    omega
  · exact hdelivered rfl (by omega)

end

/-- R114 (4) before the operands: a finite pattern's own value is delivered as that pattern, unless it is flushed. -/
theorem roundFinite_of_value (c : LaneControl) {h : Fp16} (hfinite : isFinite h = true) (hne : magBits h ≠ 0)
    (hflush : c.ftz = false ∨ isDenormal h = false) :
    roundFinite c (fpSign h) (patMag (magBits h) * 2 ^ 24) = (h, { ue := isDenormal h && !c.um }) := by
  have ha : patMag (magBits h) * 2 ^ 24 ≠ 0 := by
    have := patMag_eq_zero.not.2 hne
    omega
  rw [isFinite_iff] at hfinite
  have hround := roundPat_eq_of_patMag (fpSign h) ha c.rm rfl
  have hexact := inexact_eq_false_of_patMag ha rfl
  obtain ⟨hlow, hhigh⟩ := tinyBound_bounds (fpSign h) c.rm
  rw [roundFinite_eq c _ ha, hround, hexact, pattern_magBits, if_neg (show ¬ 0x7C00 ≤ magBits h by omega)]
  by_cases hsmall : magBits h < 1024
  · have hden : isDenormal h = true := (isDenormal_iff h).2 ⟨hne, hsmall⟩
    have hmag : patMag (magBits h) = magBits h := by rw [patMag, if_pos hsmall]
    have htiny : patMag (magBits h) * 2 ^ 24 < tinyBound (fpSign h) c.rm := by omega
    have hftz : c.ftz = false := hflush.resolve_right (by simp [hden])
    rw [if_pos htiny]
    simp [hden, hftz]
  · have hnormal : isDenormal h = false := by
      rw [Bool.eq_false_iff, ne_eq, isDenormal_iff]
      omega
    have := patMag_strictMono.monotone (Nat.le_of_not_lt hsmall)
    rw [patMag_leastNormal] at this
    rw [if_neg (by omega), hnormal, Bool.false_and]

/-! ### The delivered magnitude among all (R100) -/

section

variable {c : LaneControl} {s : Bool} {a : Nat} (ha : a ≠ 0) (hftz : c.ftz = false)

include ha hftz

theorem greatest_of_towardZero (h : TowardZero s c.rm) :
    patMag (magBits (roundFinite c s a).1) * 2 ^ 24 ≤ a ∧
      ∀ n < 0x7C00, patMag n * 2 ^ 24 ≤ a → patMag n ≤ patMag (magBits (roundFinite c s a).1) := by
  have hmag : magBits (roundFinite c s a).1 = min (floorPat a) 0x7BFF := by
    rw [roundFinite_fst c s ha hftz, roundPat_towardZero ha h, overflowResult_towardZero h]
    split_ifs <;> rw [magBits_pattern s (by omega)] <;> omega
  rw [hmag]
  refine ⟨(le_floorPat_iff ha).1 (Nat.min_le_left _ _), fun n hn hle => ?_⟩
  have := (le_floorPat_iff ha).2 hle
  exact patMag_strictMono.monotone (by omega)

theorem magBits_of_not_towardZero (h : ¬ TowardZero s c.rm) (hfinite : isFinite (roundFinite c s a).1 = true) :
    magBits (roundFinite c s a).1 = roundPat a s c.rm := by
  rw [isFinite_iff] at hfinite
  rw [roundFinite_fst c s ha hftz] at hfinite ⊢
  split_ifs at hfinite ⊢ with hover
  · rw [overflowResult_of_not_towardZero h, magBits_pattern s (by decide)] at hfinite
    omega
  · exact magBits_pattern s (by omega)

theorem least_of_awayFromZero (h : AwayFromZero s c.rm) (hfinite : isFinite (roundFinite c s a).1 = true) :
    a ≤ patMag (magBits (roundFinite c s a).1) * 2 ^ 24 ∧
      ∀ n, a ≤ patMag n * 2 ^ 24 → patMag (magBits (roundFinite c s a).1) ≤ patMag n := by
  have hnot : ¬ TowardZero s c.rm := by
    rcases h with ⟨hrm, rfl⟩ | ⟨hrm, rfl⟩ <;> simp [TowardZero, hrm]
  rw [magBits_of_not_towardZero ha hftz hnot hfinite]
  by_cases hexact : patMag (floorPat a) * 2 ^ 24 = a
  · rw [roundPat_of_exact ha s c.rm hexact]
    exact ⟨hexact.ge, fun n hle => by omega⟩
  · rw [roundPat_awayFromZero ha h hexact]
    refine ⟨(lt_patMag_floorPat_succ ha).le, fun n hle => patMag_strictMono.monotone ?_⟩
    by_contra hn
    have hn' := (le_floorPat_iff (n := n) ha).1 (by omega)
    have := patMag_strictMono.monotone (show n ≤ floorPat a by omega)
    have := patMag_floorPat_le ha
    omega

/-- The delivered magnitude is as near as any, and its number is even where another is equally near. -/
theorem nearest_of_rn (h : c.rm = .rn) (hfinite : isFinite (roundFinite c s a).1 = true) (n : Nat) :
    let v := magBits (roundFinite c s a).1
    ((a : Int) - patMag v * 2 ^ 24).natAbs ≤ ((a : Int) - patMag n * 2 ^ 24).natAbs ∧
      (((a : Int) - patMag v * 2 ^ 24).natAbs = ((a : Int) - patMag n * 2 ^ 24).natAbs → patMag n ≠ patMag v →
        v % 2 = 0) := by
  have hnot : ¬ TowardZero s c.rm := by simp [TowardZero, h]
  simp only [magBits_of_not_towardZero ha hftz hnot hfinite, h]
  have hlow := patMag_floorPat_le ha
  have hhigh := lt_patMag_floorPat_succ ha
  have hn : patMag n ≤ patMag (floorPat a) ∨ patMag (floorPat a + 1) ≤ patMag n :=
    (Nat.lt_or_ge (floorPat a) n).symm.imp (fun h => patMag_strictMono.monotone h)
      fun h => patMag_strictMono.monotone h
  rcases roundPat_nearest ha s with ⟨hup, hmid⟩ | ⟨hdown, hmid⟩
  · rw [hup]
    omega
  · rw [hdown]
    omega

end

end Sys2Proof.Machine

/-!
One lane (R101 to R113): the outcomes of `fma16`, and from them the statements about a lane.
-/

namespace Sys2Proof.Machine

open Sys2Proof

/-! ### Values (R97) -/

theorem fpVal_eq (h : Fp16) :
    fpVal h = if fpSign h then -(patMag (magBits h) : Int) else (patMag (magBits h) : Int) := by
  rw [fpVal, fpMag_eq]

theorem fpVal_eq_zero_iff (h : Fp16) : fpVal h = 0 ↔ isZero h = true := by
  rw [fpVal_eq, isZero_iff, ← patMag_eq_zero]
  split_ifs <;> omega

/-- Sign and magnitude of a value in the units of `exactFma`. -/
theorem sign_and_magnitude {h : Fp16} (hne : fpVal h ≠ 0) :
    decide (fpVal h * 2 ^ 24 < 0) = fpSign h ∧ (fpVal h * 2 ^ 24).natAbs = patMag (magBits h) * 2 ^ 24 := by
  rw [fpVal_eq] at hne ⊢
  cases hs : fpSign h <;> simp [hs] at hne ⊢ <;> omega

theorem not_isNan_of_isFinite {h : Fp16} (hf : isFinite h = true) : isNan h = false := by
  rw [isFinite_iff] at hf
  rw [Bool.eq_false_iff, ne_eq, isNan_iff]
  omega

theorem not_isInf_of_isFinite {h : Fp16} (hf : isFinite h = true) : isInf h = false := by
  rw [isFinite_iff] at hf
  rw [Bool.eq_false_iff, ne_eq, isInf_iff]
  omega

theorem not_isZero_of_isInf {h : Fp16} (hinf : isInf h = true) : isZero h = false := by
  rw [isInf_iff] at hinf
  rw [Bool.eq_false_iff, ne_eq, isZero_iff]
  omega

theorem isFinite_of_not {h : Fp16} (hnan : isNan h = false) (hinf : isInf h = false) : isFinite h = true := by
  rw [Bool.eq_false_iff, ne_eq, isNan_iff] at hnan
  rw [Bool.eq_false_iff, ne_eq, isInf_iff] at hinf
  rw [isFinite_iff]
  omega

/-! ### The sign bit alone -/

theorem magBits_flipSign (h : Fp16) : magBits (h ^^^ 0x8000#16) = magBits h := by
  rw [magBits, BitVec.toNat_xor, Nat.xor_mod_two_pow]
  simp [magBits]

theorem fpSign_flipSign (h : Fp16) : fpSign (h ^^^ 0x8000#16) = !fpSign h := by
  simp [fpSign]

theorem and_signBit (h : Fp16) : h &&& 0x8000#16 = withSign (fpSign h) 0#15 := by
  refine eq_of_sign_of_magBits ?_ ?_
  · rw [fpSign_withSign]
    simp [fpSign]
  · rw [magBits_withSign, magBits, BitVec.toNat_and, Nat.and_mod_two_pow]
    simp

theorem fpVal_flipSign (h : Fp16) : fpVal (h ^^^ 0x8000#16) = -fpVal h := by
  rw [fpVal_eq, fpVal_eq, fpSign_flipSign, magBits_flipSign]
  cases fpSign h <;> simp

theorem isNan_flipSign (h : Fp16) : isNan (h ^^^ 0x8000#16) = isNan h := by
  rw [Bool.eq_iff_iff, isNan_iff, isNan_iff, magBits_flipSign]

theorem isInf_flipSign (h : Fp16) : isInf (h ^^^ 0x8000#16) = isInf h := by
  rw [Bool.eq_iff_iff, isInf_iff, isInf_iff, magBits_flipSign]

theorem isZero_flipSign (h : Fp16) : isZero (h ^^^ 0x8000#16) = isZero h := by
  rw [Bool.eq_iff_iff, isZero_iff, isZero_iff, magBits_flipSign]

theorem isDenormal_flipSign (h : Fp16) : isDenormal (h ^^^ 0x8000#16) = isDenormal h := by
  rw [Bool.eq_iff_iff, isDenormal_iff, isDenormal_iff, magBits_flipSign]

/-! ### The lane by its operands (R101 to R104, R109) -/

theorem flushOperand_of_not_daz {c : LaneControl} (hdaz : c.daz = false) (h : Fp16) : flushOperand c h = h := by
  rw [flushOperand, hdaz, Bool.false_and, if_neg Bool.false_ne_true]

theorem fma16_of_isNan (c : LaneControl) (neg : Bool) {x y w : Fp16}
    (h : isNan x = true ∨ isNan y = true ∨ isNan w = true) :
    fma16 c neg x y w = (selectNan c.nanSelect x y w, { ie := isSnan x || isSnan y || isSnan w }) := by
  rw [fma16, if_pos (by simpa [or_assoc] using h)]

theorem fma16_of_numbers (c : LaneControl) (neg : Bool) {x y w : Fp16}
    (h : ¬ (isNan x = true ∨ isNan y = true ∨ isNan w = true)) :
    fma16 c neg x y w = fmaNumeric c neg (flushOperand c x) (flushOperand c y) (flushOperand c w) := by
  rw [fma16, if_neg (by simpa [or_assoc] using h)]

theorem fma16_of_not_isNan {c : LaneControl} (hdaz : c.daz = false) (neg : Bool) {x y w : Fp16}
    (hx : isNan x = false) (hy : isNan y = false) (hw : isNan w = false) :
    fma16 c neg x y w = fmaNumeric c neg x y w := by
  rw [fma16_of_numbers c neg (by simp [hx, hy, hw])]
  simp only [flushOperand_of_not_daz hdaz]

theorem fmaFinite_of_zero (c : LaneControl) {neg : Bool} {x y w : Fp16} (h : exactFma neg x y w = 0) :
    fmaFinite c neg x y w =
      (withSign (if (isZero x || isZero y) && isZero w && productSign neg x y == fpSign w then fpSign w
        else c.rm == .rd) 0#15, .empty) := by
  simp only [fmaFinite, if_pos h]
  split_ifs <;> rfl

theorem fmaFinite_of_ne_zero (c : LaneControl) {neg : Bool} {x y w : Fp16} (h : exactFma neg x y w ≠ 0) :
    fmaFinite c neg x y w =
      roundFinite c (decide (exactFma neg x y w < 0)) (exactFma neg x y w).natAbs := by
  simp only [fmaFinite, if_neg h]

theorem fmaFinite_pre_flags (c : LaneControl) (neg : Bool) (x y w : Fp16) :
    (fmaFinite c neg x y w).2.ie = false ∧ (fmaFinite c neg x y w).2.de = false := by
  by_cases h : exactFma neg x y w = 0
  · rw [fmaFinite_of_zero c h]
    exact ⟨rfl, rfl⟩
  · rw [fmaFinite_of_ne_zero c h]
    exact roundFinite_pre_flags c _ (Int.natAbs_ne_zero.2 h)

/-- A denormal operand (R109). -/
def anyDenormal (x y w : Fp16) : Bool := isDenormal x || isDenormal y || isDenormal w

/-- R102's two cases. -/
def invalidLane (neg : Bool) (x y w : Fp16) : Bool :=
  (isInf x && isZero y) || (isZero x && isInf y) || ((isInf x || isInf y) && isInf w && fpSign w != productSign neg x y)

/-- The four outcomes of a lane without a NaN, in the order of R113. -/
theorem fmaNumeric_eq (c : LaneControl) (neg : Bool) (x y w : Fp16) :
    fmaNumeric c neg x y w =
      if invalidLane neg x y w then (defaultNan, { ie := true, de := anyDenormal x y w && c.deOnInvalid })
      else if isInf x || isInf y then (withSign (productSign neg x y) 0x7C00#15, { de := anyDenormal x y w })
      else if isInf w then (w, { de := anyDenormal x y w })
      else ((fmaFinite c neg x y w).1, { (fmaFinite c neg x y w).2 with de := anyDenormal x y w }) := by
  obtain ⟨hie, hde⟩ := fmaFinite_pre_flags c neg x y w
  have hunion : FpFlags.union { de := anyDenormal x y w } (fmaFinite c neg x y w).2 =
      { (fmaFinite c neg x y w).2 with de := anyDenormal x y w } := by
    simp [FpFlags.union, hie, hde]
  rw [← hunion]
  rfl

theorem fmaNumeric_of_isFinite (c : LaneControl) (neg : Bool) {x y w : Fp16} (hx : isFinite x = true)
    (hy : isFinite y = true) (hw : isFinite w = true) :
    fmaNumeric c neg x y w =
      ((fmaFinite c neg x y w).1, { (fmaFinite c neg x y w).2 with de := anyDenormal x y w }) := by
  simp [fmaNumeric_eq, invalidLane, not_isInf_of_isFinite hx, not_isInf_of_isFinite hy, not_isInf_of_isFinite hw]

theorem fma16_of_isFinite {c : LaneControl} (hdaz : c.daz = false) (neg : Bool) {x y w : Fp16} (hx : isFinite x = true)
    (hy : isFinite y = true) (hw : isFinite w = true) :
    fma16 c neg x y w =
      ((fmaFinite c neg x y w).1, { (fmaFinite c neg x y w).2 with de := anyDenormal x y w }) := by
  rw [fma16_of_not_isNan hdaz neg (not_isNan_of_isFinite hx) (not_isNan_of_isFinite hy) (not_isNan_of_isFinite hw),
    fmaNumeric_of_isFinite c neg hx hy hw]

/-- A finite lane whose exact result is not zero: one rounding of it (R99, R105). -/
theorem fma16_of_ne_zero {c : LaneControl} (hdaz : c.daz = false) {neg : Bool} {x y w : Fp16} (hx : isFinite x = true)
    (hy : isFinite y = true) (hw : isFinite w = true) (h : exactFma neg x y w ≠ 0) :
    fma16 c neg x y w =
      ((roundFinite c (decide (exactFma neg x y w < 0)) (exactFma neg x y w).natAbs).1,
        { (roundFinite c (decide (exactFma neg x y w < 0)) (exactFma neg x y w).natAbs).2 with
          de := anyDenormal x y w }) := by
  rw [fma16_of_isFinite hdaz neg hx hy hw, fmaFinite_of_ne_zero c h]

/-- An exact zero (R104). -/
theorem fma16_of_zero {c : LaneControl} (hdaz : c.daz = false) {neg : Bool} {x y w : Fp16} (hx : isFinite x = true)
    (hy : isFinite y = true) (hw : isFinite w = true) (h : exactFma neg x y w = 0) :
    fma16 c neg x y w =
      (withSign (if (isZero x || isZero y) && isZero w && productSign neg x y == fpSign w then fpSign w
        else c.rm == .rd) 0#15, { de := anyDenormal x y w }) := by
  rw [fma16_of_isFinite hdaz neg hx hy hw, fmaFinite_of_zero c h, FpFlags.empty]

/-- R114 (4): a finite lane whose exact result is a finite value other than zero. -/
theorem fma16_of_value {c : LaneControl} (hdaz : c.daz = false) {neg : Bool} {x y w h : Fp16} (hx : isFinite x = true)
    (hy : isFinite y = true) (hw : isFinite w = true) (hh : isFinite h = true) (hne : fpVal h ≠ 0)
    (hflush : c.ftz = false ∨ isDenormal h = false) (hexact : exactFma neg x y w = fpVal h * 2 ^ 24) :
    fma16 c neg x y w = (h, { de := anyDenormal x y w, ue := isDenormal h && !c.um }) := by
  obtain ⟨hsign, hmag⟩ := sign_and_magnitude hne
  have hbits : magBits h ≠ 0 := by rwa [ne_eq, fpVal_eq_zero_iff, isZero_iff] at hne
  rw [fma16_of_ne_zero hdaz hx hy hw (by omega), hexact, hsign, hmag, roundFinite_of_value c hh hbits hflush]

/-! ### NaN operands (R97, R101) -/

theorem isNan_of_isSnan {h : Fp16} (hs : isSnan h = true) : isNan h = true := by
  rw [isNan, show (fpClass h == .snan) = true from hs, Bool.true_or]

theorem getLsbD_quiet (h : Fp16) {b : Nat} (hb : b ≠ 9) : (quiet h).getLsbD b = h.getLsbD b := by
  have hmask : (0x0200#16).getLsbD b = false := by
    rw [BitVec.getLsbD, show (0x0200#16).toNat = 2 ^ 9 by rfl, Nat.testBit_two_pow_of_ne (Ne.symm hb)]
  rw [quiet, BitVec.getLsbD_or, hmask, Bool.or_false]

theorem fpClass_quiet {h : Fp16} (hnan : isNan h = true) : fpClass (quiet h) = .qnan := by
  rw [isNan_iff] at hnan
  have hbits : magBits (quiet h) = magBits h ||| 0x200 := by
    rw [quiet, magBits, BitVec.toNat_or, Nat.or_mod_two_pow]
    rfl
  have hle : magBits h ≤ magBits (quiet h) := hbits ▸ Nat.left_le_or
  have htop : (fpFrac (quiet h)).getLsbD 9 = true := by simp [fpFrac, quiet]
  rw [fpClass_eq, if_neg (by omega), if_neg (by omega), if_neg (by omega), if_neg (by omega), if_pos htop]

theorem isNan_quiet {h : Fp16} (hnan : isNan h = true) : isNan (quiet h) = true := by
  rw [isNan, fpClass_quiet hnan]
  rfl

theorem isNan_firstNan {a b c : Fp16} (h : isNan a = true ∨ isNan b = true ∨ isNan c = true) :
    isNan (firstNan a b c) = true := by
  rw [firstNan]
  split_ifs with ha hb
  · exact isNan_quiet ha
  · exact isNan_quiet hb
  · exact isNan_quiet ((h.resolve_left ha).resolve_left hb)

theorem isNan_selectNan (n : NanSelect) {x y w : Fp16} (h : isNan x = true ∨ isNan y = true ∨ isNan w = true) :
    isNan (selectNan n x y w) = true := by
  cases n <;> exact isNan_firstNan (by tauto)

/-- Settles O8: the default order tries the three operands as `firstNan` does. -/
theorem nanLaneReturnsFirstNan : Obligations.NanLaneReturnsFirstNan := by
  intro c neg x y w hselect h
  obtain ⟨n, hn, hnan, hfirst⟩ : ∃ n, ((isNan x = true ∧ n = x) ∨ (isNan x = false ∧ isNan y = true ∧ n = y) ∨
      (isNan x = false ∧ isNan y = false ∧ n = w)) ∧ isNan n = true ∧ firstNan x y w = quiet n := by
    cases hx : isNan x
    · cases hy : isNan y
      · exact ⟨w, by simp, by simpa [hx, hy] using h, by simp [firstNan, hx, hy]⟩
      · exact ⟨y, by simp, hy, by simp [firstNan, hx, hy]⟩
    · exact ⟨x, by simp, hx, by simp [firstNan, hx]⟩
  refine ⟨n, hn, ?_⟩
  rw [fma16_of_isNan c neg h, hselect, selectNan, hfirst]
  exact ⟨fpClass_quiet hnan, fun b hb => getLsbD_quiet n hb, by simp [or_assoc], rfl, rfl, rfl, rfl⟩

/-- The two patterns are one NaN, or neither is a NaN. -/
def SameNan (h h' : Fp16) : Prop := h = h' ∨ (isNan h = false ∧ isNan h' = false)

theorem SameNan.isNan_eq {h h' : Fp16} (hsame : SameNan h h') : isNan h = isNan h' := by
  rcases hsame with rfl | ⟨hn, hn'⟩
  · rfl
  · rw [hn, hn']

theorem SameNan.isSnan_eq {h h' : Fp16} (hsame : SameNan h h') : isSnan h = isSnan h' := by
  rcases hsame with rfl | ⟨hn, hn'⟩
  · rfl
  · rw [Bool.eq_false_iff.2 fun hs => Bool.eq_false_iff.1 hn (isNan_of_isSnan hs),
      Bool.eq_false_iff.2 fun hs => Bool.eq_false_iff.1 hn' (isNan_of_isSnan hs)]

theorem SameNan.quiet_eq {h h' : Fp16} (hsame : SameNan h h') (hnan : isNan h = true) : quiet h = quiet h' := by
  rcases hsame with rfl | ⟨hn, -⟩
  · rfl
  · exact absurd hnan (by simp [hn])

theorem firstNan_congr {a b c a' b' c' : Fp16} (ha : SameNan a a') (hb : SameNan b b') (hc : SameNan c c')
    (h : isNan a = true ∨ isNan b = true ∨ isNan c = true) : firstNan a b c = firstNan a' b' c' := by
  rw [firstNan, firstNan, ← ha.isNan_eq, ← hb.isNan_eq]
  split_ifs with h1 h2
  · exact ha.quiet_eq h1
  · exact hb.quiet_eq h2
  · exact hc.quiet_eq ((h.resolve_left h1).resolve_left h2)

/-- Only its NaN operands decide a NaN lane. -/
theorem fma16_congr_of_isNan {c c' : LaneControl} (neg neg' : Bool) {x y w x' y' w' : Fp16}
    (hselect : c.nanSelect = c'.nanSelect) (hx : SameNan x x') (hy : SameNan y y') (hw : SameNan w w')
    (h : isNan x = true ∨ isNan y = true ∨ isNan w = true) : fma16 c neg x y w = fma16 c' neg' x' y' w' := by
  have hnan : selectNan c.nanSelect x y w = selectNan c.nanSelect x' y' w' := by
    cases c.nanSelect
    · exact firstNan_congr hx hy hw (by tauto)
    · exact firstNan_congr hx hw hy (by tauto)
    · exact firstNan_congr hy hx hw (by tauto)
    · exact firstNan_congr hy hw hx (by tauto)
    · exact firstNan_congr hw hx hy (by tauto)
    · exact firstNan_congr hw hy hx (by tauto)
  rw [fma16_of_isNan c neg h, fma16_of_isNan c' neg' (by rwa [← hx.isNan_eq, ← hy.isNan_eq, ← hw.isNan_eq]), hnan,
    hselect, hx.isSnan_eq, hy.isSnan_eq, hw.isSnan_eq]

/-! ### Infinite operands (R102, R103) -/

/-- Settles O9: each premise is a case of `invalidLane`. -/
theorem invalidLaneReturnsDefaultNan : Obligations.InvalidLaneReturnsDefaultNan := by
  intro c neg x y w hdaz hx hy hw h
  have hinvalid : invalidLane neg x y w = true := by
    rcases h with ⟨hinf, hzero⟩ | ⟨hzero, hinf⟩ | ⟨hinf, haddend, hsign⟩
    · simp [invalidLane, hinf, hzero]
    · simp [invalidLane, hinf, hzero]
    · have hopposite : (fpSign w != productSign neg x y) = true := by rw [hsign, productSign]; simp
      simp [invalidLane, Bool.or_eq_true, hinf, haddend, hopposite]
  rw [fma16_of_not_isNan hdaz neg hx hy hw, fmaNumeric_eq, if_pos hinvalid]
  rfl

/-- Settles O10: an infinity is no zero and the signs agree, so the lane is not invalid. -/
theorem infiniteLaneResult : Obligations.InfiniteLaneResult := by
  intro c neg x y w hdaz hx hy hw
  rw [fma16_of_not_isNan hdaz neg hx hy hw, fmaNumeric_eq]
  refine ⟨fun hproduct hsame => ?_, fun hxf hyf hinf => ?_⟩
  · have hinf : (isInf x || isInf y) = true := by
      rcases hproduct with ⟨h, -⟩ | ⟨h, -⟩ <;> simp [h]
    have hfirst : (isInf x && isZero y) = false := by
      rcases hproduct with ⟨-, hy0⟩ | ⟨hyinf, -⟩
      · rw [hy0, Bool.and_false]
      · rw [not_isZero_of_isInf hyinf, Bool.and_false]
    have hsecond : (isZero x && isInf y) = false := by
      rcases hproduct with ⟨hxinf, -⟩ | ⟨-, hx0⟩
      · rw [not_isZero_of_isInf hxinf, Bool.false_and]
      · rw [hx0, Bool.false_and]
    have hsum : (isInf w && fpSign w != productSign neg x y) = false := by
      cases hwinf : isInf w
      · rfl
      · simp [hsame hwinf, productSign]
    have hvalid : invalidLane neg x y w = false := by
      rw [invalidLane, hfirst, hsecond, Bool.and_assoc, hsum, Bool.and_false]
      rfl
    rw [hvalid, if_neg Bool.false_ne_true, if_pos hinf]
    show (withSign (((fpSign x).xor (fpSign y)).xor neg) 0x7C00#15, _) = _
    cases ((fpSign x).xor (fpSign y)).xor neg <;> rfl
  · simp [invalidLane, hxf, hyf, hinf, anyDenormal]

/-- A lane with a NaN or an infinity is not rounded: no OE, UE or PE (R108), and no control of rounding matters. -/
theorem fma16_of_not_isFinite {c c' : LaneControl} (hdaz : c.daz = false) (hdaz' : c'.daz = false)
    (hselect : c.nanSelect = c'.nanSelect) (hinvalid : c.deOnInvalid = c'.deOnInvalid) (neg : Bool) {x y w : Fp16}
    (h : ¬ (isFinite x = true ∧ isFinite y = true ∧ isFinite w = true)) :
    (fma16 c neg x y w).2.post = .empty ∧ fma16 c neg x y w = fma16 c' neg x y w := by
  by_cases hnan : isNan x = true ∨ isNan y = true ∨ isNan w = true
  · rw [fma16_of_isNan c neg hnan, fma16_of_isNan c' neg hnan, hselect]
    exact ⟨rfl, rfl⟩
  simp only [not_or, Bool.not_eq_true] at hnan
  obtain ⟨hx, hy, hw⟩ := hnan
  rw [fma16_of_not_isNan hdaz neg hx hy hw, fma16_of_not_isNan hdaz' neg hx hy hw, fmaNumeric_eq, fmaNumeric_eq,
    hinvalid]
  split_ifs with hbad hproduct hadd
  · exact ⟨rfl, rfl⟩
  · exact ⟨rfl, rfl⟩
  · exact ⟨rfl, rfl⟩
  · simp only [Bool.or_eq_true, not_or, Bool.not_eq_true] at hproduct hadd
    exact absurd ⟨isFinite_of_not hx hproduct.1, isFinite_of_not hy hproduct.2, isFinite_of_not hw hadd⟩ h

/-! ### The exact result of finite operands (R99, R104, R108) -/

theorem fpVal_withSign_zero (s : Bool) : fpVal (withSign s 0#15) = 0 := by
  rw [fpVal_eq_zero_iff, isZero_iff, magBits_withSign]
  rfl

theorem isFinite_withSign_zero (s : Bool) : isFinite (withSign s 0#15) = true := by
  rw [isFinite_iff, magBits_withSign]
  decide

/-- Settles O12: the value's own magnitude is the last one not above it, and nothing is left to round. -/
theorem representableResultIsExact : Obligations.RepresentableResultIsExact := by
  intro c neg x y w h hdaz hftz hx hy hw hh hne hexact
  exact fma16_of_value hdaz hx hy hw hh hne (.inl hftz) hexact

/-- Settles O11: a zero product leaves the addend's own value, which is a pattern (R114 (4)). -/
theorem exactZeroLaneResult : Obligations.ExactZeroLaneResult := by
  intro c neg x y w hdaz hx hy hw
  refine ⟨fun hzero => ?_, fun hproduct hne hflush => ?_⟩
  · rw [fma16_of_zero hdaz hx hy hw hzero]
    refine ⟨rfl, ?_⟩
    have hcommon : ((isZero x || isZero y) && isZero w && productSign neg x y == fpSign w) = true ↔
        fpVal x * fpVal y = 0 ∧ fpVal w = 0 ∧ ((fpSign x).xor (fpSign y)).xor neg = fpSign w := by
      rw [Int.mul_eq_zero, fpVal_eq_zero_iff, fpVal_eq_zero_iff, fpVal_eq_zero_iff, Bool.and_eq_true, Bool.and_eq_true,
        Bool.or_eq_true, beq_iff_eq, productSign, and_assoc]
    simp only [hcommon]
    split_ifs with h hsign hrd
    · rw [hsign]
      rfl
    · rw [Bool.eq_false_iff.2 hsign]
      rfl
    · rw [hrd]
      rfl
    · rw [show (c.rm == .rd) = false from beq_false_of_ne hrd]
      rfl
  · have hexact : exactFma neg x y w = fpVal w * 2 ^ 24 := by simp [exactFma, hproduct]
    rw [fma16_of_value hdaz hx hy hw hw hne hflush hexact]
    exact ⟨rfl, rfl, rfl, rfl⟩

/-- Settles O22: the rounding of R105 sees the operands' sum alone. -/
theorem resultDependsOnExactSumOnly : Obligations.ResultDependsOnExactSumOnly := by
  intro c neg neg' x y w x' y' w' hdaz hx hy hw hx' hy' hw' hsum hne
  rw [fma16_of_ne_zero hdaz hx hy hw hne, fma16_of_ne_zero hdaz hx' hy' hw' (hsum ▸ hne), hsum]
  exact ⟨rfl, rfl, rfl, rfl⟩

theorem getLsbD_zero_of_even {h : Fp16} (heven : magBits h % 2 = 0) : h.getLsbD 0 = false := by
  rw [magBits, Nat.mod_mod_of_dvd _ (by decide)] at heven
  simp [BitVec.getLsbD, Nat.testBit_zero, heven]

/-- A value with the sign of a number is that number exactly when it has the number's magnitude. -/
theorem fpVal_eq_iff_of_sign {h : Fp16} {r : Int} (hsign : fpSign h = decide (r < 0)) :
    fpVal h * 2 ^ 24 = r ↔ patMag (magBits h) * 2 ^ 24 = r.natAbs := by
  rw [fpVal_eq, hsign]
  by_cases hr : r < 0 <;> simp [hr] <;> omega

theorem fpVal_of_sign {h : Fp16} {r : Int} (hsign : fpSign h = decide (r < 0)) :
    fpVal h = if r < 0 then -(patMag (magBits h) : Int) else (patMag (magBits h) : Int) := by
  rw [fpVal_eq, hsign]
  simp only [decide_eq_true_eq]

/-- Settles O13: a lane with a NaN or an infinity is not rounded, an exact zero loses nothing, and every other result is
R105's. -/
theorem precisionMeansInexact : Obligations.PrecisionMeansInexact := by
  intro c neg x y w hdaz
  refine ⟨fun hx hy hw => ?_, fun hspecial => ?_⟩
  · by_cases hzero : exactFma neg x y w = 0
    · rw [fma16_of_zero hdaz hx hy hw hzero]
      simp [isFinite_withSign_zero, fpVal_withSign_zero, hzero]
    · have ha := Int.natAbs_ne_zero.2 hzero
      rw [fma16_of_ne_zero hdaz hx hy hw hzero, fpVal_eq_iff_of_sign (fpSign_roundFinite c _ ha)]
      exact roundFinite_pe_iff c _ ha
  · have hpost := (fma16_of_not_isFinite hdaz hdaz rfl rfl neg (x := x) (y := y) (w := w) (by
      rintro ⟨hx, hy, hw⟩
      simp [hx, hy, hw] at hspecial)).1
    exact congrArg FpFlags.pe hpost

/-! ### Overflow and underflow (R105 to R107) -/

/-- Settles O16: R106's thresholds are `overflowBound`. -/
theorem overflowByRoundingMode : Obligations.OverflowByRoundingMode := by
  intro c neg x y w hdaz hx hy hw
  by_cases hzero : exactFma neg x y w = 0
  · rw [fma16_of_zero hdaz hx hy hw hzero, hzero]
    cases c.rm <;> simp
  · have ha := Int.natAbs_ne_zero.2 hzero
    rw [fma16_of_ne_zero hdaz hx hy hw hzero]
    refine ⟨(roundFinite_oe_iff c _ ha).trans ?_, fun hoe => ?_⟩
    · cases c.rm <;> simp only [overflowBound, decide_eq_true_eq] <;> split_ifs <;> omega
    · have hover := (overflow_iff ha _ _).2 ((roundFinite_oe_iff c _ ha).1 hoe)
      simp only [roundFinite_of_overflow c _ ha hover, true_and]
      cases c.rm <;> cases decide (exactFma neg x y w < 0) <;> rfl

theorem inexact_of_tiny {a : Nat} {s : Bool} {rm : RoundMode} (h : a < tinyBound s rm) :
    inexact a = true ↔ a % 2 ^ 24 ≠ 0 := by
  rw [inexact, ulpExp_eq_zero (h.trans_le (tinyBound_bounds s rm).2), bne_iff_ne]

/-- Settles O17: R105's thresholds are `tinyBound`, and the last place of a tiny result is 2^-24. -/
theorem underflowIsTinyAndInexact : Obligations.UnderflowIsTinyAndInexact := by
  intro c neg x y w hdaz hftz hx hy hw r tiny
  by_cases hzero : r = 0
  · rw [fma16_of_zero hdaz hx hy hw hzero]
    simp [tiny, hzero]
  have ha := Int.natAbs_ne_zero.2 hzero
  have htiny : tiny ↔ r.natAbs < tinyBound (decide (r < 0)) c.rm := by
    simp only [tiny, ne_eq, hzero, not_false_eq_true, true_and]
    cases c.rm <;> cases decide (r < 0) <;> simp only [tinyBound] <;> simp [Nat.lt_succ_iff]
  have hue := roundFinite_ue c (decide (r < 0)) ha hftz
  rw [fma16_of_ne_zero hdaz hx hy hw hzero, htiny]
  refine ⟨fun hum => ?_, fun hum => ?_, fun h => ?_⟩
  · show (roundFinite c (decide (r < 0)) r.natAbs).2.ue = true ↔ _
    rw [hue, hum, Bool.not_true, Bool.or_false, Bool.and_eq_true, decide_eq_true_eq]
    exact and_congr_right fun h => inexact_of_tiny h
  · show (roundFinite c (decide (r < 0)) r.natAbs).2.ue = true ↔ _
    rw [hue, hum, Bool.not_false, Bool.or_true, Bool.and_true, decide_eq_true_eq]
  · have hpe : (roundFinite c (decide (r < 0)) r.natAbs).2.pe = inexact r.natAbs := by
      rw [roundFinite_eq c _ ha, if_pos h, hftz]
      rfl
    rw [← inexact_of_tiny h, ← hpe]

/-! ### The nearest patterns (R100) -/

theorem fpVal_cases (h : Fp16) : fpVal h = patMag (magBits h) ∨ fpVal h = -(patMag (magBits h) : Int) := by
  rw [fpVal_eq]
  split_ifs <;> simp

section

variable {c : LaneControl} {r : Int} (hftz : c.ftz = false) (hr : r ≠ 0)

include hftz hr

/-- Rounding downward delivers the greatest finite value not above `r`. -/
theorem roundFinite_isGreatest (hmode : c.rm = .rd ∨ c.rm = .rz ∧ 0 ≤ r)
    (hfinite : isFinite (roundFinite c (decide (r < 0)) r.natAbs).1 = true) :
    fpVal (roundFinite c (decide (r < 0)) r.natAbs).1 * 2 ^ 24 ≤ r ∧
      ∀ h, isFinite h = true → fpVal h * 2 ^ 24 ≤ r →
        fpVal h ≤ fpVal (roundFinite c (decide (r < 0)) r.natAbs).1 := by
  have ha := Int.natAbs_ne_zero.2 hr
  rw [fpVal_of_sign (fpSign_roundFinite c _ ha)]
  by_cases hneg : r < 0
  · have hrd : c.rm = .rd := hmode.resolve_right (by omega)
    obtain ⟨hle, hleast⟩ := least_of_awayFromZero ha hftz (.inl ⟨hrd, by simp [hneg]⟩) hfinite
    rw [if_pos hneg]
    refine ⟨by omega, fun h hh hbelow => ?_⟩
    have := hleast (magBits h)
    have := fpVal_cases h
    omega
  · have htoward : TowardZero (decide (r < 0)) c.rm := by
      rcases hmode with hrm | ⟨hrm, -⟩ <;> simp [TowardZero, hrm, hneg]
    obtain ⟨hle, hgreatest⟩ := greatest_of_towardZero ha hftz htoward
    rw [if_neg hneg]
    refine ⟨by omega, fun h hh hbelow => ?_⟩
    have := hgreatest (magBits h) ((isFinite_iff h).1 hh)
    have := fpVal_cases h
    omega

/-- Rounding upward delivers the least finite value not below `r`. -/
theorem roundFinite_isLeast (hmode : c.rm = .ru ∨ c.rm = .rz ∧ r ≤ 0)
    (hfinite : isFinite (roundFinite c (decide (r < 0)) r.natAbs).1 = true) :
    r ≤ fpVal (roundFinite c (decide (r < 0)) r.natAbs).1 * 2 ^ 24 ∧
      ∀ h, isFinite h = true → r ≤ fpVal h * 2 ^ 24 →
        fpVal (roundFinite c (decide (r < 0)) r.natAbs).1 ≤ fpVal h := by
  have ha := Int.natAbs_ne_zero.2 hr
  rw [fpVal_of_sign (fpSign_roundFinite c _ ha)]
  by_cases hneg : r < 0
  · have htoward : TowardZero (decide (r < 0)) c.rm := by
      rcases hmode with hrm | ⟨hrm, -⟩ <;> simp [TowardZero, hrm, hneg]
    obtain ⟨hle, hgreatest⟩ := greatest_of_towardZero ha hftz htoward
    rw [if_pos hneg]
    refine ⟨by omega, fun h hh habove => ?_⟩
    have := hgreatest (magBits h) ((isFinite_iff h).1 hh)
    have := fpVal_cases h
    omega
  · have hru : c.rm = .ru := hmode.resolve_right (by omega)
    obtain ⟨hle, hleast⟩ := least_of_awayFromZero ha hftz (.inr ⟨hru, by simp [hneg]⟩) hfinite
    rw [if_neg hneg]
    refine ⟨by omega, fun h hh habove => ?_⟩
    have := hleast (magBits h)
    have := fpVal_cases h
    omega

/-- Rounding to nearest: of the values of the other sign none is nearer than zero is, and zero is a magnitude too. -/
theorem roundFinite_isNearest (hrn : c.rm = .rn)
    (hfinite : isFinite (roundFinite c (decide (r < 0)) r.natAbs).1 = true) (h : Fp16) :
    let v := (roundFinite c (decide (r < 0)) r.natAbs).1
    (r - fpVal v * 2 ^ 24).natAbs ≤ (r - fpVal h * 2 ^ 24).natAbs ∧
      ((r - fpVal v * 2 ^ 24).natAbs = (r - fpVal h * 2 ^ 24).natAbs → fpVal h ≠ fpVal v → magBits v % 2 = 0) := by
  have ha := Int.natAbs_ne_zero.2 hr
  have hnear := nearest_of_rn ha hftz hrn hfinite
  have hself := hnear (magBits h)
  have hzero := hnear 0
  have hval := fpVal_cases h
  rw [patMag_zero] at hzero
  simp only at hself hzero ⊢
  rw [fpVal_of_sign (fpSign_roundFinite c _ ha)]
  by_cases hneg : r < 0
  · rw [if_pos hneg]
    omega
  · rw [if_neg hneg]
    omega

end

/-- Settles O14: by the neighbours of the exact result's magnitude among the patterns. -/
theorem directedRoundingIsTight : Obligations.DirectedRoundingIsTight := by
  intro c neg x y w hdaz hx hy hw
  by_cases hzero : exactFma neg x y w = 0
  · rw [fma16_of_zero hdaz hx hy hw hzero, hzero]
    simp only [fpVal_withSign_zero]
    exact ⟨fun hne => absurd rfl hne, fun _ _ => ⟨fun _ => ⟨by decide, fun h _ _ => by omega⟩,
      fun _ => ⟨by decide, fun h _ _ => by omega⟩⟩⟩
  · rw [fma16_of_ne_zero hdaz hx hy hw hzero]
    exact ⟨fun _ => fpSign_roundFinite c _ (Int.natAbs_ne_zero.2 hzero), fun hftz hfinite =>
      ⟨fun hmode => roundFinite_isGreatest hftz hzero hmode hfinite,
        fun hmode => roundFinite_isLeast hftz hzero hmode hfinite⟩⟩

/-- Settles O15: by the neighbours of the exact result's magnitude among the patterns. -/
theorem nearestRoundingIsNearest : Obligations.NearestRoundingIsNearest := by
  intro c neg x y w h hdaz hftz hrn hx hy hw hfinite hh
  by_cases hzero : exactFma neg x y w = 0
  · rw [fma16_of_zero hdaz hx hy hw hzero, hzero]
    simp only [fpVal_withSign_zero]
    exact ⟨by omega, fun htie hne => by omega⟩
  · rw [fma16_of_ne_zero hdaz hx hy hw hzero] at hfinite ⊢
    obtain ⟨hle, heven⟩ := roundFinite_isNearest hftz hzero hrn hfinite h
    exact ⟨hle, fun htie hne => getLsbD_zero_of_even (heven htie hne)⟩

/-! ### What every lane keeps (R111) -/

theorem not_isNan_of_magBits_le {h : Fp16} (hle : magBits h ≤ 0x7C00) : isNan h = false := by
  rw [Bool.eq_false_iff, ne_eq, isNan_iff]
  omega

theorem isNan_fmaFinite (c : LaneControl) (neg : Bool) (x y w : Fp16) : isNan (fmaFinite c neg x y w).1 = false := by
  refine not_isNan_of_magBits_le ?_
  by_cases h : exactFma neg x y w = 0
  · rw [fmaFinite_of_zero c h, magBits_withSign]
    decide
  · rw [fmaFinite_of_ne_zero c h]
    exact magBits_roundFinite_le c _ (Int.natAbs_ne_zero.2 h)

theorem fmaFinite_post_flags_of_oe (c : LaneControl) (neg : Bool) (x y w : Fp16)
    (hoe : (fmaFinite c neg x y w).2.oe = true) :
    (fmaFinite c neg x y w).2.ue = false ∧ (fmaFinite c neg x y w).2.pe = true := by
  by_cases h : exactFma neg x y w = 0
  · rw [fmaFinite_of_zero c h] at hoe
    cases hoe
  · rw [fmaFinite_of_ne_zero c h] at hoe ⊢
    exact roundFinite_post_flags_of_oe c _ (Int.natAbs_ne_zero.2 h) hoe

theorem isNan_flushOperand (c : LaneControl) (h : Fp16) : isNan (flushOperand c h) = isNan h := by
  rw [flushOperand]
  split_ifs with hflush
  · rw [Bool.and_eq_true, isDenormal_iff] at hflush
    rw [not_isNan_of_magBits_le (by rw [magBits_withSign]; decide), not_isNan_of_magBits_le (by omega)]
  · rfl

theorem FpFlags.bits_ze (a : FpFlags) : a.bits.getLsbD 2 = false := by
  obtain ⟨ie, de, oe, ue, pe⟩ := a
  cases ie <;> cases de <;> cases oe <;> cases ue <;> cases pe <;> rfl

/-- A lane without a NaN operand is invalid, answers without post-computation flags, or rounds. -/
theorem fmaNumeric_cases (c : LaneControl) (neg : Bool) {x y w : Fp16} (hw : isNan w = false) :
    (∃ d, fmaNumeric c neg x y w = (defaultNan, { ie := true, de := d })) ∨
      (∃ h d, isNan h = false ∧ fmaNumeric c neg x y w = (h, { de := d })) ∨
      ∃ d, fmaNumeric c neg x y w = ((fmaFinite c neg x y w).1, { (fmaFinite c neg x y w).2 with de := d }) := by
  rw [fmaNumeric_eq]
  split_ifs
  · exact .inl ⟨_, rfl⟩
  · exact .inr (.inl ⟨_, _, not_isNan_of_magBits_le (by rw [magBits_withSign]; decide), rfl⟩)
  · exact .inr (.inl ⟨_, _, hw, rfl⟩)
  · exact .inr (.inr ⟨_, rfl⟩)

/-- R111 and R114 (7) for a lane without a NaN operand. -/
theorem fmaNumeric_flags (c : LaneControl) (neg : Bool) {x y w : Fp16} (hw : isNan w = false) :
    let res := fmaNumeric c neg x y w
    (res.2.ie = true → res.2.oe = false ∧ res.2.ue = false ∧ res.2.pe = false) ∧
      (res.2.oe = true → res.2.ue = false ∧ res.2.pe = true) ∧ (isNan res.1 = true ↔ res.2.ie = true) := by
  intro res
  rcases fmaNumeric_cases c neg hw (x := x) (y := y) with ⟨d, h⟩ | ⟨v, d, hv, h⟩ | ⟨d, h⟩ <;> rw [show res = _ from h]
  · exact ⟨fun _ => ⟨rfl, rfl, rfl⟩, fun hoe => absurd hoe Bool.false_ne_true,
      iff_of_true (show isNan defaultNan = true by decide) rfl⟩
  · exact ⟨fun hie => absurd hie Bool.false_ne_true, fun hoe => absurd hoe Bool.false_ne_true, by simp [hv]⟩
  · have hie := (fmaFinite_pre_flags c neg x y w).1
    exact ⟨fun h => by simp [hie] at h, fmaFinite_post_flags_of_oe c neg x y w, by simp [isNan_fmaFinite, hie]⟩

/-- Settles O18: by the outcomes of a lane. -/
theorem laneFlagCombinations : Obligations.LaneFlagCombinations := by
  intro c neg x y w
  by_cases hnan : isNan x = true ∨ isNan y = true ∨ isNan w = true
  · rw [fma16_of_isNan c neg hnan]
    have hres := isNan_selectNan c.nanSelect hnan
    exact ⟨fun _ => ⟨rfl, rfl, rfl⟩, fun h => by simp at h, FpFlags.bits_ze _,
      iff_of_true hres (hnan.imp_right (.imp_right .inl))⟩
  · have hnot := hnan
    simp only [not_or, Bool.not_eq_true] at hnot
    obtain ⟨hx, hy, hw⟩ := hnot
    obtain ⟨hie, hoe, hres⟩ := fmaNumeric_flags c neg (x := flushOperand c x) (y := flushOperand c y)
      ((isNan_flushOperand c w).trans hw)
    rw [fma16_of_numbers c neg hnan]
    exact ⟨hie, hoe, FpFlags.bits_ze _, hres.trans (by simp [hx, hy, hw])⟩

/-! ### Symmetries (R112, R114) -/

theorem exactFma_neg_left (x y w : Fp16) : exactFma true x y w = exactFma false (x ^^^ 0x8000#16) y w := by
  simp [exactFma, fpVal_flipSign]

theorem exactFma_comm (neg : Bool) (x y w : Fp16) : exactFma neg x y w = exactFma neg y x w := by
  simp only [exactFma, Int.mul_comm (fpVal x)]

theorem productSign_neg_left (x y : Fp16) : productSign true x y = productSign false (x ^^^ 0x8000#16) y := by
  simp [productSign, fpSign_flipSign]

theorem productSign_comm (neg : Bool) (x y : Fp16) : productSign neg x y = productSign neg y x := by
  rw [productSign, productSign, Bool.xor_comm (fpSign x)]

theorem fmaNumeric_neg_left (c : LaneControl) (x y w : Fp16) :
    fmaNumeric c true x y w = fmaNumeric c false (x ^^^ 0x8000#16) y w := by
  simp only [fmaNumeric_eq, invalidLane, anyDenormal, fmaFinite, exactFma_neg_left x, productSign_neg_left x,
    isInf_flipSign, isZero_flipSign, isDenormal_flipSign]

theorem fmaNumeric_comm (c : LaneControl) (neg : Bool) (x y w : Fp16) :
    fmaNumeric c neg x y w = fmaNumeric c neg y x w := by
  have hinvalid : invalidLane neg x y w = invalidLane neg y x w := by
    rw [invalidLane, invalidLane, productSign_comm neg x y, Bool.or_comm (isInf x && isZero y), Bool.and_comm (isZero x),
      Bool.and_comm (isInf x) (isZero y), Bool.or_comm (isInf x)]
  have hden : anyDenormal x y w = anyDenormal y x w := by
    rw [anyDenormal, anyDenormal, Bool.or_comm (isDenormal x)]
  simp only [fmaNumeric_eq, hinvalid, hden, fmaFinite, exactFma_comm neg x y, productSign_comm neg x y,
    Bool.or_comm (isInf x), Bool.or_comm (isZero x)]

theorem fmaNumeric_neg_right (c : LaneControl) (x y w : Fp16) :
    fmaNumeric c true x y w = fmaNumeric c false x (y ^^^ 0x8000#16) w := by
  rw [fmaNumeric_comm, fmaNumeric_neg_left, fmaNumeric_comm]

theorem flushOperand_flipSign (c : LaneControl) (h : Fp16) :
    flushOperand c (h ^^^ 0x8000#16) = flushOperand c h ^^^ 0x8000#16 := by
  rw [flushOperand, flushOperand, isDenormal_flipSign, fpSign_flipSign]
  split_ifs
  · cases fpSign h <;> rfl
  · rfl

theorem sameNan_flipSign {h : Fp16} (hn : isNan h = false) : SameNan h (h ^^^ 0x8000#16) :=
  .inr ⟨hn, (isNan_flipSign h).trans hn⟩

theorem firstNan_comm {x y : Fp16} (w : Fp16) (hboth : ¬ (isNan x = true ∧ isNan y = true)) :
    firstNan x y w = firstNan y x w := by
  rw [firstNan, firstNan]
  split_ifs with hx hy hy
  · exact absurd ⟨hx, hy⟩ hboth
  · rfl
  · rfl
  · rfl

/-- Settles O19: a NaN lane sees its NaN operands alone, and every other outcome is symmetric in the product's sign. -/
theorem negationAndFactorSymmetry : Obligations.NegationAndFactorSymmetry := by
  intro c x y w
  by_cases hnan : isNan x = true ∨ isNan y = true ∨ isNan w = true
  · refine ⟨fun hx => fma16_congr_of_isNan _ _ rfl (sameNan_flipSign hx) (.inl rfl) (.inl rfl) hnan,
      fun hy => fma16_congr_of_isNan _ _ rfl (.inl rfl) (sameNan_flipSign hy) (.inl rfl) hnan,
      fun hselect hboth neg => ?_⟩
    rw [fma16_of_isNan c neg hnan, fma16_of_isNan c neg (or_left_comm.1 hnan), hselect, selectNan, selectNan,
      firstNan_comm w hboth, Bool.or_comm (isSnan x)]
  · refine ⟨fun _ => ?_, fun _ => ?_, fun _ _ neg => ?_⟩
    · rw [fma16_of_numbers c _ hnan, fma16_of_numbers c _ (by rwa [isNan_flipSign]), flushOperand_flipSign,
        fmaNumeric_neg_left]
    · rw [fma16_of_numbers c _ hnan, fma16_of_numbers c _ (by rwa [isNan_flipSign]), flushOperand_flipSign,
        fmaNumeric_neg_right]
    · rw [fma16_of_numbers c _ hnan, fma16_of_numbers c _ (mt or_left_comm.1 hnan), fmaNumeric_comm]

theorem eq_of_isInf {h : Fp16} (hinf : isInf h = true) : h = if fpSign h then 0xFC00#16 else 0x7C00#16 := by
  rw [isInf_iff] at hinf
  conv_lhs => rw [← pattern_magBits h, hinf]
  cases fpSign h <;> rfl

theorem eq_of_isZero {h : Fp16} (hzero : isZero h = true) : h = if fpSign h then 0x8000#16 else 0#16 := by
  rw [isZero_iff] at hzero
  conv_lhs => rw [← pattern_magBits h, hzero]
  cases fpSign h <;> rfl

/-- Settles O20: infinities by R103, zeros by R104, and every other operand is a value that R114 (4) returns. -/
theorem multiplyByOneIsIdentity : Obligations.MultiplyByOneIsIdentity := by
  intro c x hdaz hftz hx
  have hden : anyDenormal x 0x3C00#16 0x8000#16 = isDenormal x := by
    rw [anyDenormal, show isDenormal 0x3C00#16 = false by decide, show isDenormal 0x8000#16 = false by decide,
      Bool.or_false, Bool.or_false]
  cases hinf : isInf x with
  | true =>
    have hlane := (infiniteLaneResult c false x 0x3C00#16 0x8000#16 hdaz hx (by decide) (by decide)).1
      (.inl ⟨hinf, by decide⟩) (fun h => absurd h (by decide))
    rw [hlane]
    rw [eq_of_isInf hinf]
    cases fpSign x <;> rfl
  | false =>
    have hfinite := isFinite_of_not hx hinf
    have hexact : exactFma false x 0x3C00#16 0x8000#16 = fpVal x * 2 ^ 24 := by
      rw [exactFma, show fpVal 0x3C00#16 = 2 ^ 24 by decide, show fpVal 0x8000#16 = 0 by decide]
      simp
    by_cases hzero : fpVal x = 0
    · rw [fma16_of_zero hdaz hfinite (by decide) (by decide) (by rw [hexact, hzero]; rfl), hden,
        eq_of_isZero ((fpVal_eq_zero_iff x).1 hzero)]
      cases fpSign x <;> cases c.rm <;> rfl
    · have hne : x ≠ 0#16 := by
        rintro rfl
        exact hzero (by decide)
      rw [fma16_of_value hdaz hfinite (by decide) (by decide) hfinite hzero (.inl hftz) hexact, hden,
        if_neg (fun h => hne h.1)]

/-! ### DAZ and FTZ (R110) -/

theorem flushOperand_of_daz {c : LaneControl} (hdaz : c.daz = true) (h : Fp16) :
    flushOperand c h = if isDenormal h then h &&& 0x8000#16 else h := by
  rw [flushOperand, hdaz, Bool.true_and, and_signBit]

theorem sameNan_flushOperand (c : LaneControl) (h : Fp16) : SameNan h (flushOperand c h) := by
  by_cases hnan : isNan h = true
  · have hden : isDenormal h = false := by
      rw [isNan_iff] at hnan
      rw [Bool.eq_false_iff, ne_eq, isDenormal_iff]
      omega
    rw [flushOperand, hden, Bool.and_false, if_neg Bool.false_ne_true]
    exact .inl rfl
  · exact .inr ⟨Bool.eq_false_iff.2 hnan, (isNan_flushOperand c h).trans (Bool.eq_false_iff.2 hnan)⟩

/-- R110 (a). -/
theorem fma16_of_daz (c : LaneControl) (neg : Bool) (x y w : Fp16) :
    fma16 c neg x y w =
      fma16 { c with daz := false } neg (flushOperand c x) (flushOperand c y) (flushOperand c w) := by
  by_cases hnan : isNan x = true ∨ isNan y = true ∨ isNan w = true
  · exact fma16_congr_of_isNan neg neg rfl (sameNan_flushOperand c x) (sameNan_flushOperand c y)
      (sameNan_flushOperand c w) hnan
  · rw [fma16_of_numbers c neg hnan, fma16_of_numbers _ neg (by simpa only [isNan_flushOperand] using hnan)]
    simp only [flushOperand_of_not_daz (c := { c with daz := false }) rfl]
    rfl

/-- R110 (b) before the operands: a result that would detect UE with UM = 0 is flushed, any other is not. -/
theorem roundFinite_ftz {c : LaneControl} (hftz : c.ftz = true) (s : Bool) {a : Nat} (ha : a ≠ 0) :
    roundFinite c s a =
      if c.um && (roundFinite { c with ftz := false, masks := 0#6 } s a).2.ue then
        (pattern s 0, { ue := true, pe := true })
      else roundFinite { c with ftz := false } s a := by
  have hue : (roundFinite { c with ftz := false, masks := 0#6 } s a).2.ue = decide (a < tinyBound s c.rm) := by
    rw [roundFinite_ue _ s ha rfl]
    simp [LaneControl.um]
  have hum : LaneControl.um { c with ftz := false } = c.um := rfl
  rw [hue, roundFinite_eq c s ha, roundFinite_eq { c with ftz := false } s ha, hftz, hum]
  by_cases htiny : a < tinyBound s c.rm <;> cases c.um <;> simp [htiny]

/-- R110 (b) on finite operands with a result that is not zero. -/
theorem fma16_ftz_of_ne_zero {c : LaneControl} (hdaz : c.daz = false) (hftz : c.ftz = true) {neg : Bool}
    {x y w : Fp16} (hx : isFinite x = true) (hy : isFinite y = true) (hw : isFinite w = true)
    (h : exactFma neg x y w ≠ 0) :
    fma16 c neg x y w =
      if c.um && (fma16 { c with ftz := false, masks := 0#6 } neg x y w).2.ue then
        (pattern (decide (exactFma neg x y w < 0)) 0, { de := anyDenormal x y w, ue := true, pe := true })
      else fma16 { c with ftz := false } neg x y w := by
  rw [fma16_of_ne_zero hdaz hx hy hw h, fma16_of_ne_zero (c := { c with ftz := false }) hdaz hx hy hw h,
    fma16_of_ne_zero (c := { c with ftz := false, masks := 0#6 }) hdaz hx hy hw h,
    roundFinite_ftz hftz _ (Int.natAbs_ne_zero.2 h)]
  split_ifs <;> rfl

/-- Settles O21: an exact zero and a lane with a NaN or an infinity see neither FTZ nor UM. -/
theorem dazAndFtzByParameter : Obligations.DazAndFtzByParameter := by
  refine ⟨fun s f => ⟨rfl, rfl⟩, fun c neg x y w hdaz => ?_, fun c neg x y w hdaz hftz => ?_⟩
  · rw [← flushOperand_of_daz hdaz, ← flushOperand_of_daz hdaz, ← flushOperand_of_daz hdaz]
    exact fma16_of_daz c neg x y w
  by_cases hfinite : isFinite x = true ∧ isFinite y = true ∧ isFinite w = true
  · obtain ⟨hx, hy, hw⟩ := hfinite
    by_cases hzero : exactFma neg x y w = 0
    · rw [fma16_of_zero hdaz hx hy hw hzero, fma16_of_zero (c := { c with ftz := false }) hdaz hx hy hw hzero,
        fma16_of_zero (c := { c with ftz := false, masks := 0#6 }) hdaz hx hy hw hzero]
      exact ⟨fun _ => rfl, fun _ hue => absurd hue Bool.false_ne_true⟩
    · rw [fma16_ftz_of_ne_zero hdaz hftz hx hy hw hzero]
      refine ⟨fun h => if_neg ?_, fun hum hue => ?_⟩
      · rw [Bool.and_eq_true]
        rintro ⟨hum, hue⟩
        rcases h with h | h
        · exact Bool.false_ne_true (h.symm.trans hum)
        · exact Bool.false_ne_true (h.symm.trans hue)
      · rw [hum, hue]
        by_cases hneg : exactFma neg x y w < 0 <;> simp only [hneg, decide_true, decide_false] <;> rfl
  · obtain ⟨hpost, -⟩ := fma16_of_not_isFinite (c := { c with ftz := false, masks := 0#6 }) hdaz hdaz rfl rfl neg
      hfinite
    obtain ⟨-, hsame⟩ := fma16_of_not_isFinite (c := c) (c' := { c with ftz := false }) hdaz hdaz rfl rfl neg hfinite
    have hnoUe := congrArg FpFlags.ue hpost
    exact ⟨fun _ => hsame, fun _ hue => absurd (hue.symm.trans hnoUe) (by decide)⟩

end Sys2Proof.Machine

/-!
Completion of an instruction (40_packed_common.md R83 to R90, R24), said once for every row, and with the roles that the
digits give the operands (R80): the statements of VFMADD132PH, VFMADD213PH and VFMADD231PH (42_vfmadd_ph.md R120 to R122).
-/

namespace Sys2Proof.Machine

open Sys2Proof

/-! ### The outcome of the lanes when no flag is unmasked (R88, R89) -/

/-- An unmasked flag of all active lanes together is one of some active lane. -/
theorem State.exists_unmasked_of_detected {s : State} {f : Form} {t3 : Nat → Fp16} {masks : BitVec 6}
    (h : (s.detected f t3).unmasked masks = true) : ∃ j, Active f s j ∧ (s.laneResult f t3 j).2.unmasked masks = true := by
  obtain ⟨b, hbit, hmask⟩ := (FpFlags.unmasked_iff _ _).1 h
  obtain ⟨j, hj, hlane⟩ := (s.getLsbD_detected f t3 b).1 hbit
  exact ⟨j, (s.mem_activeLanes f j).1 hj, (FpFlags.unmasked_iff _ _).2 ⟨b, hlane, hmask⟩⟩

theorem NoneUnmasked.detected {f : Form} {s : State} (h : NoneUnmasked f s (lanesOf f s)) (er : f.er = none) :
    (s.detected f (thirdElement f s)).unmasked s.mxcsrMasks = false := by
  rw [← Bool.not_eq_true]
  intro hunmasked
  obtain ⟨j, hj, hlane⟩ := State.exists_unmasked_of_detected hunmasked
  exact bne_iff_ne.1 hlane (h er j hj)

/-- R88: without embedded rounding and without an unmasked flag the lanes complete. -/
theorem execLanes_of_noneUnmasked {f : Form} {t3 : Nat → Fp16} {s : State} (er : f.er = none)
    (h : (s.detected f t3).unmasked s.mxcsrMasks = false) :
    execLanes f t3 s = .next (s.complete f t3 (s.detected f t3)) := by
  obtain ⟨hpre, hpost⟩ := Bool.or_eq_false_iff.1 ((FpFlags.unmasked_eq_pre_or_post _ _).symm.trans h)
  simp [execLanes, er, hpre, hpost]

/-! ### What completion writes (R24, R83 to R86) -/

/-- A completed instruction meets the frame of R24 when the flags `a` that it ORs into MXCSR are those of its active lanes,
none under embedded rounding. -/
theorem completesWith_complete {f : Form} {s : State} {a : FpFlags}
    (hflags : ∀ b, a.bits.getLsbD b = true ↔
      f.er = none ∧ ∃ j, Active f s j ∧ (lanesOf f s j).2.bits.getLsbD b = true) :
    CompletesWith (.next (s.complete f (thirdElement f s) a)) f s (lanesOf f s) := by
  have hwrites : Writes a s (s.complete f (thirdElement f s) a) := .completed f _ rfl
  refine ⟨_, rfl, fun j hj => ?active, fun j hj hoff => ?inactive, fun b hb => ?upper, fun r hr => ?others,
    fun b hb => ?mxcsr, rfl, rfl, rfl, hwrites.restUnchanged⟩
  case active =>
    have hlt : j < f.vl.lanes := hj.1
    rw [State.lane_complete_dest s _ _ _ hlt, State.newLane_of_active _ hj, State.laneResult_thirdElement]
  case inactive => rw [State.lane_complete_dest s _ _ _ hj, State.newLane_of_not_active _ hj hoff]
  case upper =>
    rw [State.complete_zmmReg_self]
    exact s.regBit_newDest_of_le _ hb
  case others => exact s.complete_zmmReg_other _ _ hr
  case mxcsr =>
    have hmxcsr : (s.complete f (thirdElement f s) a).mxcsr = (s.orFlags a).mxcsr := rfl
    rw [hmxcsr, s.getLsbD_orFlags a hb, Bool.or_eq_true, hflags]

/-- Every instruction completes with the lane results of its digits (R90): under embedded rounding with no flag, otherwise
with the flags that its active lanes detect. -/
theorem completesAs_lanesOf (i : Instr) : CompletesAs i i.form (lanesOf i.form) := by
  intro s henabled hreadable hnone
  rw [exec_eq, execPacked_enabled henabled hreadable]
  cases her : i.form.er with
  | some rc =>
    rw [execLanes_of_er s _ (by rw [her, Option.isSome_some])]
    exact completesWith_complete fun b => by simp [her]
  | none =>
    rw [execLanes_of_noneUnmasked her (hnone.detected her)]
    refine completesWith_complete fun b => ?_
    simp only [her, true_and, State.getLsbD_detected, State.mem_activeLanes, State.laneResult_thirdElement]

/-! ### The roles of the operands (R80) -/

/-- The lane results in the words of R120 to R125, by the digits. -/
def lanesByDigits : Digits → Bool → Form → State → Nat → Fp16 × FpFlags
  | .d132 => lanes132
  | .d213 => lanes213
  | .d231 => lanes231

theorem lanesOf_eq_lanesByDigits (f : Form) : lanesOf f = lanesByDigits f.digits f.neg f := by
  funext s j
  cases hdigits : f.digits with
  | d132 => rw [lanesOf, hdigits, laneFma, lanesByDigits, lanes132]
  | d213 => rw [lanesOf, hdigits, laneFma, lanesByDigits, lanes213]
  | d231 => rw [lanesOf, hdigits, laneFma, lanesByDigits, lanes231]

theorem completesAs_lanesByDigits (i : Instr) : CompletesAs i i.form (lanesByDigits i.form.digits i.form.neg i.form) :=
  lanesOf_eq_lanesByDigits i.form ▸ completesAs_lanesOf i

/-! ### VFMADD132PH, VFMADD213PH, VFMADD231PH (R120 to R122) -/

/-- Settles O23: all four rows complete, and their digits multiply operands 1 and 3. -/
theorem vfmadd132Completes : Obligations.Vfmadd132Completes :=
  ⟨fun o => completesAs_lanesByDigits (.vfmadd132phEr o),
    fun o => completesAs_lanesByDigits (.vfmadd132ph128 o),
    fun o => completesAs_lanesByDigits (.vfmadd132ph256 o),
    fun o => completesAs_lanesByDigits (.vfmadd132ph512 o)⟩

/-- Settles O24: all four rows complete, and their digits multiply operands 2 and 1. -/
theorem vfmadd213Completes : Obligations.Vfmadd213Completes :=
  ⟨fun o => completesAs_lanesByDigits (.vfmadd213phEr o),
    fun o => completesAs_lanesByDigits (.vfmadd213ph128 o),
    fun o => completesAs_lanesByDigits (.vfmadd213ph256 o),
    fun o => completesAs_lanesByDigits (.vfmadd213ph512 o)⟩

/-- Settles O25: all four rows complete, and their digits multiply operands 2 and 3. -/
theorem vfmadd231Completes : Obligations.Vfmadd231Completes :=
  ⟨fun o => completesAs_lanesByDigits (.vfmadd231phEr o),
    fun o => completesAs_lanesByDigits (.vfmadd231ph128 o),
    fun o => completesAs_lanesByDigits (.vfmadd231ph256 o),
    fun o => completesAs_lanesByDigits (.vfmadd231ph512 o)⟩

end Sys2Proof.Machine

/-!
VFNMADD132PH, VFNMADD213PH and VFNMADD231PH (43_vfnmadd_ph.md R123 to R125): these rows fix `Form.neg = true`, so that
the lane results by digits (`lanesByDigits`, R80) are those of the negated product.
-/

namespace Sys2Proof.Machine

open Sys2Proof

/-- Settles O26: all four rows complete, and their digits multiply operands 1 and 3, the product negated. -/
theorem vfnmadd132Completes : Obligations.Vfnmadd132Completes :=
  ⟨fun o => completesAs_lanesByDigits (.vfnmadd132phEr o),
    fun o => completesAs_lanesByDigits (.vfnmadd132ph128 o),
    fun o => completesAs_lanesByDigits (.vfnmadd132ph256 o),
    fun o => completesAs_lanesByDigits (.vfnmadd132ph512 o)⟩

/-- Settles O27: all four rows complete, and their digits multiply operands 2 and 1, the product negated. -/
theorem vfnmadd213Completes : Obligations.Vfnmadd213Completes :=
  ⟨fun o => completesAs_lanesByDigits (.vfnmadd213phEr o),
    fun o => completesAs_lanesByDigits (.vfnmadd213ph128 o),
    fun o => completesAs_lanesByDigits (.vfnmadd213ph256 o),
    fun o => completesAs_lanesByDigits (.vfnmadd213ph512 o)⟩

/-- Settles O28: all four rows complete, and their digits multiply operands 2 and 3, the product negated. -/
theorem vfnmadd231Completes : Obligations.Vfnmadd231Completes :=
  ⟨fun o => completesAs_lanesByDigits (.vfnmadd231phEr o),
    fun o => completesAs_lanesByDigits (.vfnmadd231ph128 o),
    fun o => completesAs_lanesByDigits (.vfnmadd231ph256 o),
    fun o => completesAs_lanesByDigits (.vfnmadd231ph512 o)⟩

end Sys2Proof.Machine

/-!
The exceptions of an instruction and of a step (60_exceptions.md R132, R135, R136, R140): how an instruction raises one, said
once, and what that leaves unchanged.
-/

namespace Sys2Proof.Machine

open Sys2Proof

/-! ### How an instruction raises an exception (R139, R140) -/

/-- How an instruction of form `f` at `s` raises `e`, ending in `t`: a check before the lanes fails, a needed byte does not
translate (R135), or the lanes detect an unmasked flag and report flags in MXCSR (R88, R137). -/
inductive RaisesAs (f : Form) (s t : State) (e : Exception) : Prop where
  | check (notPf : ∀ code la, e ≠ .pf code la) (h : t = s.takeException e)
  | pageFault (bcst : Bool) (m : MemOperand) (src : f.src3 = .mem bcst m) (la : Addr) (code : BitVec 32)
      (needed : la ∈ s.neededBytes f bcst (s.linearAddress f bcst m)) (faults : s.translate .read la = .pageFault code)
      (he : e = .pf code la) (h : t = s.takeException e)
  | simd (a : FpFlags) (he : e = s.simdException) (h : t = (s.orFlags a).takeException e)

theorem simdException_ne_pf (s : State) (code : BitVec 32) (la : Addr) : s.simdException ≠ .pf code la := by
  rw [State.simdException]
  split <;> simp

/-- The cases of an exception that was not recorded before the instruction. -/
theorem exec_raises_cases {i : Instr} {s t : State} {e : Exception} (hs : s.raised = none) (h : exec i s = .next t)
    (he : t.raised = some e) : RaisesAs i.form s t e := by
  have recorded : ∀ {u : State} {e' : Exception}, t = u.takeException e' → e' = e := fun ht => by simpa [ht] using he
  rw [exec_eq] at h
  cases execPacked_cases h with
  | ud c ht =>
    obtain rfl := recorded ht
    exact .check (by simp) ht
  | nm c ht =>
    obtain rfl := recorded ht
    exact .check (by simp) ht
  | address bcst m src c ht =>
    obtain rfl := recorded ht
    exact .check (by split <;> simp) ht
  | pageFault bcst m src la code c ht =>
    obtain rfl := recorded ht
    obtain ⟨needed, faults⟩ := c
    exact .pageFault bcst m src la code needed faults rfl ht
  | lanes enabled readable hlanes =>
    rcases hlanes.raises_or_completes with ⟨_, a, _, ht⟩ | ⟨_, a, ht⟩
    · obtain rfl := recorded ht
      exact .simd a rfl ht
    · rw [ht, State.complete_raised, hs] at he
      cases he

theorem State.takeException_cr2_of_ne_pf (s : State) {e : Exception} (h : ∀ code la, e ≠ .pf code la) :
    (s.takeException e).cr2 = s.cr2 := by
  rw [s.takeException_eq e h]

section
variable {f : Form} {s t : State} {e : Exception}

/-- Whatever raises, the record and CR2 are written by taking the exception, and MXCSR by the flags alone: none of them
unless the exception is that of R137. -/
theorem RaisesAs.eq_takeException (h : RaisesAs f s t e) :
    ∃ a, t = (s.orFlags a).takeException e ∧ (a = .empty ∨ e = s.simdException) := by
  cases h with
  | check notPf h => exact ⟨.empty, by rw [State.orFlags_empty, h], .inl rfl⟩
  | pageFault bcst m src la code needed faults he h => exact ⟨.empty, by rw [State.orFlags_empty, h], .inl rfl⟩
  | simd a he h => exact ⟨a, h, .inr he⟩

/-- R135: a page fault comes from a needed byte. -/
theorem RaisesAs.of_pf {bcst : Bool} {m : MemOperand} {code : BitVec 32} {la : Addr}
    (h : RaisesAs f s t (.pf code la)) (hsrc : f.src3 = .mem bcst m) :
    la ∈ s.neededBytes f bcst (s.linearAddress f bcst m) ∧ s.translate .read la = .pageFault code := by
  cases h with
  | check notPf h => exact absurd rfl (notPf code la)
  | pageFault bcst' m' src la' code' needed faults he h =>
    obtain ⟨rfl, rfl⟩ : bcst' = bcst ∧ m' = m := by simpa [hsrc, eq_comm] using src
    obtain ⟨rfl, rfl⟩ : code = code' ∧ la = la' := by simpa using he
    exact ⟨needed, faults⟩
  | simd a he h => exact absurd he.symm (simdException_ne_pf s code la)

end

/-- Settles O33: a raise is an exception taken after flags were ORed into MXCSR, and only R137 ORs any. -/
theorem raisedExceptionIsPrecise : Obligations.RaisedExceptionIsPrecise := by
  intro i s t e hs h he
  have hraises := exec_raises_cases hs h he
  obtain ⟨_, hwrites, _⟩ := exec_writes h
  obtain ⟨a, rfl, hflags⟩ := hraises.eq_takeException
  refine ⟨by simp, by simp, hwrites.restUnchanged, fun hmxcsr => ?_, fun code la hpf => ?_, fun hpf => ?_⟩
  · rcases hflags with rfl | hsimd
    · simp at hmxcsr
    · exact hsimd
  · rw [hpf, State.takeException_pf_cr2]
  · rw [State.takeException_cr2_of_ne_pf _ hpf, State.orFlags_cr2]

/-! ### A needed byte that page-faults (R135) -/

/-- R39: a page fault of some needed byte is reported before anything else is looked at (log 27). -/
theorem State.loadStatus_eq_pageFault {s : State} {l : List Addr}
    (h : ∃ a ∈ l, ∃ code, s.translate .read a = .pageFault code) :
    ∃ la code, s.loadStatus l = .pageFault la code ∧ la ∈ l ∧ s.translate .read la = .pageFault code := by
  obtain ⟨a, ha, c, hfault⟩ := h
  cases hlow : s.lowestFault l with
  | none =>
    obtain ⟨pa, hphys⟩ := (s.lowestFault_eq_none l).1 hlow a ha
    simp [hfault] at hphys
  | some p =>
    obtain ⟨la, code⟩ := p
    exact ⟨la, code, by rw [State.loadStatus, hlow], s.lowestFault_mem l hlow⟩

theorem execMemory_of_pageFault {f : Form} {bcst : Bool} {m : MemOperand} {s : State} {la : Addr} {code : BitVec 32}
    (hcanonical : s.operandCanonical f bcst (s.linearAddress f bcst m) = true)
    (h : s.loadStatus (s.neededBytes f bcst (s.linearAddress f bcst m)) = .pageFault la code) :
    execMemory f bcst m s = raiseException (.pf code la) s := by
  simp [execMemory, hcanonical, h]

/-- Settles O46: the check of the needed bytes reports one that page-faults, and no other exception of an instruction is a
page fault. -/
theorem neededByteRaisesPageFault : Obligations.NeededByteRaisesPageFault := by
  intro i s bcst m hsrc henabled hcanonical
  refine ⟨fun hfault => ?_, fun t code la hs h hraised => (exec_raises_cases hs h hraised).of_pf hsrc⟩
  obtain ⟨la, code, hstatus, hneeded, htranslate⟩ := State.loadStatus_eq_pageFault hfault
  refine ⟨la, code, hneeded, htranslate, ?_⟩
  rw [exec_eq, execPacked_of_mem henabled hsrc, execMemory_of_pageFault hcanonical hstatus]
  rfl

/-! ### #NM and #AC (R132, R136) -/

theorem execPacked_of_taskSwitched {f : Form} {s : State} (hm : s.in64BitMode = true) (hf : s.featureMissing f = false)
    (hos : s.osEnabled = true) (hts : s.taskSwitched = true) : execPacked f s = raiseException .nm s := by
  simp [execPacked, State.realOrVm86_of_in64BitMode hm, hm, hf, hos, hts]

/-- Settles O44: the premises pass the #UD checks, and CR0.TS is tested next. -/
theorem taskSwitchedRaisesNm : Obligations.TaskSwitchedRaisesNm := by
  intro i s hm hf hfp hvl hos hts
  rw [exec_eq, execPacked_of_taskSwitched hm (State.featureMissing_eq_false hf hfp hvl) hos hts]
  rfl

theorem Writes.raised_ne_ac {a : FpFlags} {s t : State} (h : Writes a s t) (hs : s.raised ≠ some .ac) :
    t.raised ≠ some .ac := by
  cases h with
  | raised e notAc h => simpa [h] using notAc
  | completed f t3 h => rwa [h, State.complete_raised]

/-- R141: a pending exception ends the run. -/
theorem raised_eq_none_of_step {s t : State} (h : step s = .next t) : s.raised = none := by
  cases hs : s.raised with
  | none => rfl
  | some e =>
    rw [step_of_raised hs] at h
    cases h

/-- Settles O48: a step starts with nothing raised, and nothing that it writes records #AC. -/
theorem alignmentCheckNeverRaised : Obligations.AlignmentCheckNeverRaised := by
  intro s t h
  obtain ⟨a, hwrites⟩ := step_writes h
  exact hwrites.raised_ne_ac (by simp [raised_eq_none_of_step h])

end Sys2Proof.Machine

/-!
The privilege level (60_exceptions.md R144): it is CS.RPL (log 30), only `Translate` reads it, and where no range names a
level every operation commutes with replacing the CS selector.
-/

namespace Sys2Proof.Machine

open Sys2Proof

/-- Replace the CS selector, to compare two states; no instruction does so (R140). -/
def State.setCsSelector (s : State) (sel : BitVec 16) : State := { s with csSelector := sel }

/-- No range of `Translate` names a privilege level. -/
def LevelFree (s : State) : Prop := ∀ r ∈ s.translation, r.cpl = none

theorem TranslateRange.applies_of_levelFree {r : TranslateRange} (h : r.cpl = none) (kind : AccessKind) (c c' : BitVec 2)
    (la : Addr) : r.applies kind c la = r.applies kind c' la := by
  simp [TranslateRange.applies, h]

theorem raiseException_setCsSelector (e : Exception) (s : State) (sel : BitVec 16) :
    raiseException e (s.setCsSelector sel) = mapNext (·.setCsSelector sel) (raiseException e s) := by
  cases e <;> rfl

/-- The lanes do not read the CS selector. -/
theorem execLanes_setCsSelector (f : Form) (t3 : Nat → Fp16) (s : State) (sel : BitVec 16) :
    execLanes f t3 (s.setCsSelector sel) = mapNext (·.setCsSelector sel) (execLanes f t3 s) := by
  have hdetected : (s.setCsSelector sel).detected f t3 = s.detected f t3 := rfl
  have hmasks : (s.setCsSelector sel).mxcsrMasks = s.mxcsrMasks := rfl
  have hor : ∀ a, (s.setCsSelector sel).orFlags a = (s.orFlags a).setCsSelector sel := fun _ => rfl
  have hsimd : (s.setCsSelector sel).simdException = s.simdException := rfl
  simp only [execLanes, hdetected, hmasks, hor, hsimd, raiseException_setCsSelector, apply_ite (mapNext _)]
  rfl

theorem State.lowestFault_congr {s t : State} (h : t.translate .read = s.translate .read) (l : List Addr) :
    t.lowestFault l = s.lowestFault l := by
  induction l with
  | nil => rfl
  | cons la l ih => rw [State.lowestFault, State.lowestFault, ih, h]

section
variable {s : State}

theorem LevelFree.translate (h : LevelFree s) (sel : BitVec 16) : (s.setCsSelector sel).translate = s.translate := by
  funext kind la
  have hfind : (s.translation.find? fun r => r.applies kind (s.setCsSelector sel).cpl la) =
      s.translation.find? fun r => r.applies kind s.cpl la :=
    List.find?_congr fun r hr => TranslateRange.applies_of_levelFree (h r hr) kind _ _ la
  rw [State.translate, State.translate, ← hfind]
  rfl

theorem LevelFree.readByte (h : LevelFree s) (sel : BitVec 16) : (s.setCsSelector sel).readByte = s.readByte := by
  funext kind la
  rw [State.readByte, State.readByte, h.translate]
  rfl

theorem LevelFree.loadStatus (h : LevelFree s) (sel : BitVec 16) (l : List Addr) :
    (s.setCsSelector sel).loadStatus l = s.loadStatus l := by
  have hlowest := State.lowestFault_congr (congrFun (h.translate sel) .read) l
  rw [State.loadStatus, State.loadStatus, hlowest, h.readByte]

theorem LevelFree.element (h : LevelFree s) (sel : BitVec 16) : (s.setCsSelector sel).element = s.element := by
  funext la
  rw [State.element, State.element, h.readByte]

theorem LevelFree.execMemory (h : LevelFree s) (sel : BitVec 16) (f : Form) (bcst : Bool) (m : MemOperand) :
    execMemory f bcst m (s.setCsSelector sel) = mapNext (·.setCsSelector sel) (execMemory f bcst m s) := by
  have haddr : (s.setCsSelector sel).linearAddress f bcst m = s.linearAddress f bcst m := rfl
  have hcanonical : ∀ la, (s.setCsSelector sel).operandCanonical f bcst la = s.operandCanonical f bcst la := fun _ => rfl
  have hneeded : ∀ la, (s.setCsSelector sel).neededBytes f bcst la = s.neededBytes f bcst la := fun _ => rfl
  simp only [Machine.execMemory, haddr, hcanonical, hneeded, h.loadStatus, h.element, raiseException_setCsSelector,
    apply_ite (mapNext _)]
  congr 1
  cases s.loadStatus (s.neededBytes f bcst (s.linearAddress f bcst m)) with
  | ok => exact execLanes_setCsSelector f _ s sel
  | _ => rfl

theorem LevelFree.execPacked (h : LevelFree s) (sel : BitVec 16) (f : Form) :
    execPacked f (s.setCsSelector sel) = mapNext (·.setCsSelector sel) (execPacked f s) := by
  have hreal : (s.setCsSelector sel).realOrVm86 = s.realOrVm86 := rfl
  have h64 : (s.setCsSelector sel).in64BitMode = s.in64BitMode := rfl
  have hfeature : (s.setCsSelector sel).featureMissing f = s.featureMissing f := rfl
  have hos : (s.setCsSelector sel).osEnabled = s.osEnabled := rfl
  have hts : (s.setCsSelector sel).taskSwitched = s.taskSwitched := rfl
  have hregs : (s.setCsSelector sel).hasRegisters f = s.hasRegisters f := rfl
  simp only [Machine.execPacked, hreal, h64, hfeature, hos, hts, hregs, raiseException_setCsSelector,
    apply_ite (mapNext _)]
  cases f.src3 with
  | reg r => simp only [execLanes_setCsSelector]; rfl
  | mem bcst m => simp only [h.execMemory]; rfl

end

/-- Settles O49: `execPacked` commutes with replacing the CS selector. -/
theorem privilegeLevelDoesNotMatter : Obligations.PrivilegeLevelDoesNotMatter := by
  intro i s sel h
  rw [exec_eq, exec_eq]
  exact LevelFree.execPacked h sel i.form

end Sys2Proof.Machine

/-!
The state after RESET as the forms see it (70_reset_and_hazards.md R160): CR0.PE is 0, which alone disables every form (U9).
-/

namespace Sys2Proof.Machine

open Sys2Proof

/-- RESET enters real-address mode (R26). -/
theorem State.protectedMode_reset : State.reset.protectedMode = false := by decide

/-- U9 for CR0.PE alone, whatever CR4, XCR0 and the features would allow. -/
theorem exec_raisesOnly_ud_of_not_protectedMode (i : Instr) {s : State} (h : s.protectedMode = false) :
    RaisesOnly (exec i s) .ud s :=
  disabledFormsRaiseUd i s (.inl h)

/-- Settles O54: real-address mode raises #UD before any operand is read, and the rest are the values of R26. -/
theorem everyFormRaisesUdAfterReset : Obligations.EveryFormRaisesUdAfterReset := by
  have hud : ∀ i, RaisesOnly (exec i State.reset) .ud State.reset := fun i =>
    exec_raisesOnly_ud_of_not_protectedMode i State.protectedMode_reset
  have hinit : ∀ s : State, s.initEvent.zmm = s.zmm ∧ s.initEvent.k = s.k ∧ s.initEvent.mxcsr = s.mxcsr :=
    fun _ => ⟨rfl, rfl, rfl⟩
  exact ⟨State.protectedMode_reset, rfl, rfl, hud, State.zmmReg_reset, State.kAt_reset, rfl, hinit⟩

end Sys2Proof.Machine
